-- ==== Sys2Proof/Word.lean ====
section
/-! DEFINITION. The carried fields of a frame: bytes, and the little-endian fields of two and four bytes
(spec/10 R173). Everything the data book calls a quantity (a length, a count, a time) is a `Nat` or an `Int`. -/

namespace Sys2Proof

/-- One character of a port: 8 data bits (spec/10 section 10.1). -/
abbrev Byte := BitVec 8

/-- A two-byte field. -/
abbrev Half := BitVec 16

/-- A four-byte field. -/
abbrev Word := BitVec 32

/-- The 16 bytes of an engineer code, first byte sent in the lowest bits (spec/08 R148). -/
abbrev EngineerCode := BitVec 128

end Sys2Proof
end

