-- ==== Sys2Proof/Config.lean ====
section
/-! DEFINITION. The sizes of the part's tables and the limits that several chapters share. Each is a number the
data book states; the part leaves no value open to an implementation, so there is no free value here. -/

namespace Sys2Proof.Config

/-- Entries of the slot table (R1). -/
def slotCount : Nat := 4096

/-- Entries of the wall table (R7). -/
def wallCount : Nat := 32

/-- Entries of the brick catalogue (R11). -/
def typeCount : Nat := 64

/-- Watch records (R157). -/
def watchCount : Nat := 8

/-- Entries the ready queue may hold (R38). -/
def queueCapacity : Nat := 64

/-- Carriers the boom line may hold, and tags (R46). -/
def lineCapacity : Nat := 8

/-- Entries a Queue Read response has room for (R42). -/
def queueReadRoom : Nat := 27

/-- Largest value of the site clock; it holds there (R105, R106). -/
def maxTime : Nat := 4294967295

/-- Seconds from a weather report to staleness (R111, R112). -/
def staleAfter : Nat := 30

/-- Bounds of every open time, in seconds (R109). -/
def openTimeMin : Nat := 60
def openTimeMax : Nat := 3600

/-- Largest design left and measured end (R2, R6). -/
def positionMax : Nat := 200000

/-- Largest measured top (R6). -/
def topMax : Nat := 500000

/-- Wrong codes allowed between two power-on resets (R149). -/
def attemptsMax : Nat := 5

/-- Largest count a watch holds (R157). -/
def watchCountMax : Nat := 255

end Sys2Proof.Config
end

