-- ==== Sys2Proof/Syntax.lean ====
section
/-! DEFINITION. The commands: one constructor for each row of spec/opcode_table.json. A port command carries
the fields of its frame's body as they are carried (spec/10 R176 to R179 and section 10.5), before any of them
is tested, so every frame of the right size has a term. Rows both ports list carry the port. -/

namespace Sys2Proof

/-- The two link ports (spec/00 "Ports and lines"). -/
inductive Port where
  /-- The Plan Port, from the plan computer. -/
  | P
  /-- The Machine Port, from the machine controller. -/
  | M
  deriving DecidableEq, Repr

/-- A slot address as carried: the mode byte and three bytes whose meaning depends on it (R176). -/
structure SlotAddress where
  mode : Byte
  byte1 : Byte
  byte2 : Byte
  byte3 : Byte
  deriving DecidableEq, Repr

/-- Bytes 4 to 22 of a load record: the fields Slot Amend carries too (R177, section 10.5). -/
structure DrawnFields where
  designLeft : Word
  type : Byte
  /-- 0 means absent. -/
  planCut : Half
  supportCount : Byte
  support0 : Half
  support1 : Half
  support2 : Half
  /-- FFFFh means absent. -/
  left : Half
  /-- FFFFh means absent. -/
  right : Half
  /-- Bit n for station n. -/
  reach : Byte
  deriving DecidableEq, Repr

/-- A load record without its index, as Slot Restore carries it: bytes 2 to 22 (R177). -/
structure PlanFields where
  wall : Byte
  course : Byte
  drawn : DrawnFields
  deriving DecidableEq, Repr

/-- A load record of Slot Load, 23 bytes (R177). -/
structure LoadRecord where
  index : Half
  plan : PlanFields
  deriving DecidableEq, Repr

/-- The as-laid part a Slot Restore carries, five fields of 4 bytes (R129, R177). -/
structure AsLaidFields where
  left : Word
  right : Word
  topLeft : Word
  topRight : Word
  timeLaid : Word
  deriving DecidableEq, Repr

/-- The parameters of a wall as Wall Define and Wall Set carry them (section 10.5, code 20h). -/
structure WallFields where
  base : Word
  courseHeight : Half
  courseCount : Byte
  bedMin : Byte
  bedMax : Byte
  jointMin : Byte
  jointNominal : Byte
  jointMax : Byte
  driftMax : Half
  heightTol : Half
  positionTol : Half
  deriving DecidableEq, Repr

/-- The fields of a catalogue entry as Type Define carries them (section 10.5, code 28h). -/
structure TypeFields where
  defined : Byte
  length : Half
  height : Half
  bin : Byte
  cuttable : Byte
  minCut : Half
  deriving DecidableEq, Repr

/-- The body of Watch Set (section 10.5, code 0Eh). -/
structure WatchFields where
  number : Byte
  enabled : Byte
  /-- FFh means Any. -/
  wall : Byte
  /-- FFh means Any. -/
  course : Byte
  state : Byte
  mode : Byte
  deriving DecidableEq, Repr

/-- The operands of a Sweep but its operation byte (R136; section 10.5, code 10h). -/
structure SweepFields where
  start : SlotAddress
  count : Half
  direction : Byte
  /-- The signed delta of a Shift; the type of a Retype in the low byte. -/
  deltaOrType : Half
  condition : Byte
  state : Byte
  deriving DecidableEq, Repr

/-- The four measured figures of a Laid report (R178). -/
structure LaidFields where
  left : Word
  right : Word
  topLeft : Word
  topRight : Word
  deriving DecidableEq, Repr

/-- The commands and events of the part, one for each row of spec/opcode_table.json. -/
inductive Instr where
  /-- SLOT_READ (R16). -/
  | slotRead (p : Port) (a : SlotAddress)
  /-- WALL_READ (R17). -/
  | wallRead (p : Port) (wall : Byte)
  /-- TYPE_READ (R17). -/
  | typeRead (p : Port) (type : Byte)
  /-- QUEUE_READ (R42). -/
  | queueRead (p : Port) (count : Byte)
  /-- LINE_READ (R68). -/
  | lineRead (p : Port)
  /-- READ_TIME (R108). -/
  | readTime (p : Port)
  /-- CONDITIONS_READ (R116). -/
  | conditionsRead (p : Port)
  /-- OPTION_READ (R125). -/
  | optionRead (p : Port)
  /-- STATUS (R175). -/
  | status (p : Port)
  /-- EVENT_FETCH (R164). -/
  | eventFetch (p : Port)
  /-- EVENT_MASK (R165): bit k for vector code k + 1. Port M carries the low byte alone. -/
  | eventMask (p : Port) (mask : Half)
  /-- AUTHORITY_READ (R156). -/
  | authorityRead
  /-- WATCH_READ (R161). -/
  | watchRead
  /-- WATCH_SET (R158). -/
  | watchSet (w : WatchFields)
  /-- AUDIT (R143). -/
  | audit (wall : Byte)
  /-- SWEEP_WITHHOLD (R136): the operation byte is 0, or one that names no operation (R150; assumption 9). -/
  | sweepWithhold (op : Byte) (f : SweepFields)
  /-- SWEEP_FREE (R136). -/
  | sweepFree (f : SweepFields)
  /-- SWEEP_SHIFT (R136). -/
  | sweepShift (f : SweepFields)
  /-- SWEEP_RETYPE (R136). -/
  | sweepRetype (f : SweepFields)
  /-- ABORT (R147). -/
  | abort
  /-- HOLD (R65). -/
  | hold
  /-- RELEASE (R65). -/
  | release
  /-- UNLOCK (R151). -/
  | unlock (code : EngineerCode)
  /-- LOCK (R152). -/
  | lock
  /-- SET_CODE (R153). -/
  | setCode (presence : Byte) (code : EngineerCode)
  /-- FREEZE (R154). -/
  | freeze
  /-- WALL_DEFINE (R18). -/
  | wallDefine (wall : Byte) (f : WallFields) (priority : Byte)
  /-- WALL_SET (R19). -/
  | wallSet (wall : Byte) (f : WallFields)
  /-- WALL_OPEN (R20). -/
  | wallOpen (wall : Byte)
  /-- PAUSE (R21). -/
  | pause (wall : Byte)
  /-- RESUME (R22). -/
  | resume (wall : Byte)
  /-- PRIORITY (R23). -/
  | priority (wall : Byte) (value : Byte)
  /-- CLOSE (R24). -/
  | close (wall : Byte)
  /-- WALL_FREE (R25). -/
  | wallFree (wall : Byte)
  /-- TYPE_DEFINE (R12). -/
  | typeDefine (type : Byte) (f : TypeFields)
  /-- SLOT_LOAD (R127). -/
  | slotLoad (records : List LoadRecord)
  /-- SLOT_RESTORE (R129). -/
  | slotRestore (a : SlotAddress) (f : PlanFields) (laid : AsLaidFields)
  /-- SLOT_AMEND (R131): bits 0 to 6 of the field set name the fields to change. -/
  | slotAmend (a : SlotAddress) (fields : Byte) (f : DrawnFields)
  /-- SLOT_DELETE (R133). -/
  | slotDelete (a : SlotAddress)
  /-- WITHHOLD (R134). -/
  | withhold (a : SlotAddress)
  /-- FREE (R134). -/
  | free (a : SlotAddress)
  /-- CLEAR (R135). -/
  | clear (a : SlotAddress)
  /-- ACCEPT (R98). -/
  | accept (a : SlotAddress)
  /-- LIFT (R100). -/
  | lift (a : SlotAddress)
  /-- SET_TIME (R107). -/
  | setTime (value : Word)
  /-- SET_OPTION (R124): the value is signed. -/
  | setOption (code : Byte) (value : Word)
  /-- SET_EPL (R155). -/
  | setEpl (level : Byte)
  /-- STATION (R43): FFh for None. -/
  | station (value : Byte)
  /-- CLAIM (R48). -/
  | claim
  /-- CUT_DONE (R53). -/
  | cutDone (tag : Byte)
  /-- GLUED (R54). -/
  | glued (tag : Byte)
  /-- TARGET_REQUEST (R55). -/
  | targetRequest (tag : Byte)
  /-- LAID (R58). -/
  | laid (tag : Byte) (f : LaidFields)
  /-- REJECT (R60). -/
  | reject (tag : Byte) (reason : Byte)
  /-- BIN_STATUS (R64): bit n for bin n, 1 empty. -/
  | binStatus (empty : Half)
  /-- CONDITIONS (R112): the temperature is signed. -/
  | conditions (temperature : Byte) (wind : Byte)
  /-- SWEEP_STEP (R138). -/
  | sweepStep
  /-- AUDIT_STEP (R143). -/
  | auditStep
  /-- CLOCK_TICK (R106). -/
  | clockTick
  /-- ADHESIVE_EXPIRY (R62): the carrier named by its tag. -/
  | adhesiveExpiry (tag : Nat)
  /-- STALENESS (R114). -/
  | staleness
  /-- FRAME_GAP_TIMEOUT (R170). -/
  | frameGapTimeout (p : Port)
  /-- FRAME_CHECK_FAIL (R171): the complete frame after its A5h, length byte first, check bytes last. -/
  | frameCheckFail (p : Port) (frame : List Byte)
  /-- UNKNOWN_CODE (R172): the code and body of a checked frame that is no command of the port, by its code
  or by its size (assumption 10). -/
  | unknownCode (p : Port) (code : Byte) (body : List Byte)
  /-- ENDING_RESPONSE_SEND (R174). -/
  | endingResponseSend
  /-- ESTOP_CHANGE (R67): the level the input takes. -/
  | estopChange (asserted : Bool)
  /-- LINE_RESET (R69). -/
  | lineReset
  /-- POWER_ON_RESET (R1). -/
  | powerOnReset
  /-- FRAME_LENGTH_OUT_OF_RANGE (R170): the length byte that came after A5h. -/
  | frameLengthOutOfRange (p : Port) (length : Byte)
  deriving DecidableEq, Repr

end Sys2Proof
end

