-- ==== Sys2Proof/Machine/State.lean ====
section
/-! DEFINITION. The state of the part, block by block as the data book divides it (spec/00 "Block overview"), its
responses, and the state after reset. Plain data throughout. -/

namespace Sys2Proof.Machine

open Sys2Proof

/-! ### Plan Store (spec/01) -/

/-- The states of a slot, in the order of R1, which numbers them from 0 (R173). -/
inductive SlotState where
  | empty | planned | ready | claimed | set | suspect | fault | retired
  deriving DecidableEq, Repr

/-- Why a slot is in Fault, or a target is refused (R5), in the order of section 10.4. -/
inductive FaultReason where
  | supportStep | gapWide | gapNarrow | notCuttable | drift
  deriving DecidableEq, Repr

/-- The target part of a slot (R5). -/
structure Target where
  top : Nat
  left : Nat
  length : Nat
  deriving DecidableEq, Repr

/-- The as-laid part of a slot (R6). -/
structure AsLaid where
  left : Nat
  right : Nat
  topLeft : Nat
  topRight : Nat
  timeLaid : Nat
  deriving DecidableEq, Repr

/-- A non-Empty slot: plan fields (R2), status flags (R4), optional parts (R5, R6). -/
structure Slot where
  state : SlotState
  wall : Nat
  course : Nat
  designLeft : Nat
  type : Nat
  planCut : Option Nat
  supports : List Nat
  left : Option Nat
  right : Option Nat
  /-- Bit n for station n (R177). -/
  reach : Byte
  withheld : Bool
  openLeft : Bool
  corrected : Bool
  late : Bool
  tag : Option Nat
  target : Option Target
  asLaid : Option AsLaid
  faultReason : Option FaultReason
  deriving DecidableEq, Repr

/-- The non-Empty entries of the slot table with their indices, which rise strictly; an index that is not
listed is Empty (R1; assumption 21). -/
abbrev SlotTable := List (Nat × Slot)

/-- The states of a wall (R7). -/
inductive WallState where
  | free | draft | opened | paused | closed
  deriving DecidableEq, Repr

/-- The parameters of a wall (R8). -/
structure WallParams where
  base : Nat
  courseHeight : Nat
  courseCount : Nat
  bedMin : Nat
  bedMax : Nat
  jointMin : Nat
  jointNominal : Nat
  jointMax : Nat
  driftMax : Nat
  heightTol : Nat
  positionTol : Nat
  deriving DecidableEq, Repr

/-- A wall record (R7). -/
structure Wall where
  state : WallState
  params : WallParams
  priority : Nat
  audited : Bool
  complete : Bool
  slotCount : Nat
  laidCount : Nat
  deriving DecidableEq, Repr

/-- The parameters of a Free wall (R7). -/
def WallParams.zero : WallParams := ⟨0, 0, 0, 0, 0, 0, 0, 0, 0, 0, 0⟩

/-- A Free wall holds zero in every parameter, priority and count, with both flags clear (R7). -/
def Wall.freeWall : Wall := ⟨.free, WallParams.zero, 0, false, false, 0, 0⟩

/-- A catalogue entry (R11). -/
structure BrickType where
  defined : Bool
  length : Nat
  height : Nat
  bin : Nat
  cuttable : Bool
  minCut : Nat
  deriving DecidableEq, Repr

/-- An undefined entry holds zero in every other field (R11). -/
def BrickType.undefinedEntry : BrickType := ⟨false, 0, 0, 0, false, 0⟩

/-- The three tables of the Plan Store. -/
structure Plan where
  slots : SlotTable
  walls : Vector Wall Config.wallCount
  types : Vector BrickType Config.typeCount
  deriving DecidableEq, Repr

/-! ### Dispatcher and boom line (spec/02, spec/03) -/

/-- The Ready Queue's state (R38, R43, R45). -/
structure Dispatcher where
  /-- Slot indices, front first. -/
  queue : List Nat
  station : Option Nat
  /-- The hold request is requested. -/
  hold : Bool
  /-- Bit n set: bin n is empty. -/
  binEmpty : Half
  deriving DecidableEq, Repr

/-- The stages of a carrier (R47). -/
inductive Stage where
  | picked | cut | glued | targeted | expired | faulted
  deriving DecidableEq, Repr

/-- A brick in flight (R47). -/
structure Carrier where
  tag : Nat
  slot : Nat
  stage : Stage
  cutLength : Option Nat
  closer : Bool
  top : Nat
  left : Option Nat
  deadline : Option Nat
  targeted : Bool
  deriving DecidableEq, Repr

/-! ### Site time and weather (spec/06) -/

/-- A weather gate (R111), coded 0 Closed and 1 Open (R173). -/
inductive Gate where
  | closed | opened
  deriving DecidableEq, Repr

/-- The conditions record (R111). -/
structure Conditions where
  temperature : Int
  wind : Nat
  lastReport : Option Nat
  stale : Bool
  range : Bool
  glue : Gate
  exposure : Gate
  stop : Gate
  deriving DecidableEq, Repr

/-- The record after power-on reset (R111). -/
def Conditions.reset : Conditions := ⟨20, 0, none, true, false, .closed, .closed, .closed⟩

/-- The ten options (R123). -/
structure Options where
  otRef : Int
  slope : Int
  tGlueMin : Int
  tGlueMax : Int
  exposureClose : Int
  exposureOpen : Int
  stopClose : Int
  stopOpen : Int
  exposureHeight : Int
  autoClear : Int
  deriving DecidableEq, Repr

/-- The defaults of R123. -/
def Options.defaults : Options := ⟨900, 40, 2, 40, 40, 30, 60, 50, 20000, 0⟩

/-! ### Edit Engine (spec/07) -/

inductive Direction where
  | up | down
  deriving DecidableEq, Repr

/-- The operation of a sweep with its operand (R136). -/
inductive SweepOp where
  | withhold
  | free
  | shift (delta : Int)
  | retype (type : Nat)
  deriving DecidableEq, Repr

/-- The condition of a sweep (R136). -/
inductive SweepCondition where
  | always
  | whileIn (s : SlotState)
  | untilIn (s : SlotState)
  deriving DecidableEq, Repr

/-- The context of a running sweep (R137). The current index may step outside the table (R138 test 3). -/
structure SweepContext where
  index : Int
  remaining : Nat
  direction : Direction
  op : SweepOp
  condition : SweepCondition
  last : Option Nat
  abortPending : Bool
  deriving DecidableEq, Repr

/-- The context of a running audit (R137). -/
structure AuditContext where
  wall : Nat
  last : Option Nat
  abortPending : Bool
  deriving DecidableEq, Repr

/-- The Edit Engine holds at most one context (R137). -/
inductive Engine where
  | idle
  | sweep (c : SweepContext)
  | audit (c : AuditContext)
  deriving DecidableEq, Repr

/-- The end reasons of a sweep, in the order of R141. -/
inductive SweepEnd where
  | done | condEnd | aborted | edge | inFlight | badState | notHeld | badValue
  deriving DecidableEq, Repr

/-- The failure codes of an audit, in the order of R144. -/
inductive AuditFailure where
  | typeUndefined | courseRange | courseZeroSupport | supportMissing | supportOtherWall | supportCourse
  | supportNoOverlap | courseOverlap | neighbourLink | reachEmpty
  deriving DecidableEq, Repr

/-! ### Authority (spec/08) -/

/-- The levels of port P; Operator is below Engineer (R149, R150). -/
inductive Level where
  | operator | engineer
  deriving DecidableEq, Repr

/-- The Authority Unit's state; the stored code is non-volatile (R148, R149). -/
structure Authority where
  code : Option EngineerCode
  level : Level
  attempts : Nat
  frozen : Bool
  epl : Level
  deriving DecidableEq, Repr

/-! ### Watches and events (spec/09) -/

inductive WatchMode where
  | once | every
  deriving DecidableEq, Repr

/-- A watch record (R157); an absent wall or course is Any. -/
structure Watch where
  enabled : Bool
  wall : Option Nat
  course : Option Nat
  entered : SlotState
  mode : WatchMode
  latched : Bool
  count : Nat
  lastSlot : Option Nat
  lastTime : Option Nat
  deriving DecidableEq, Repr

/-- A watch after power-on reset (R157). -/
def Watch.reset : Watch := ⟨false, none, none, .ready, .every, false, 0, none, none⟩

/-- The Watch and Event Unit (R157, R162, R163). The latches of Watch 0 to Watch 7 are the watches' latched
fields. A mask bit k set masks the source with vector code k + 1. -/
structure Events where
  watches : Vector Watch Config.watchCount
  planFault : Bool
  suspect : Bool
  wallComplete : Bool
  expiry : Bool
  gateChange : Bool
  stale : Bool
  maskP : BitVec 11
  maskM : BitVec 3
  deriving DecidableEq, Repr

/-- The unit after power-on reset: watches reset, latches clear, every source masked (R168). -/
def Events.reset : Events :=
  ⟨Vector.replicate Config.watchCount Watch.reset, false, false, false, false, false, false,
    BitVec.allOnes 11, BitVec.allOnes 3⟩

/-! ### Responses (spec/10) -/

/-- The status codes (section 10.4). -/
inductive Status where
  | ok | busy | malformed | unknown | badAddress | badValue | badState | inFlight | notHeld | authority
  | exhausted | frozen | full | inUse | lineFull | lineNotEmpty | notFront | outOfStep | late | noBrick
  | fault | discard | aborted | edge | auditFail | hasFollowers | notBusy | notAudited
  deriving DecidableEq, Repr

/-- The reasons of a NoBrick answer (R48). -/
inductive NoBrickReason where
  | clockUnset | noStation | eStop | hold | windStop | glueGate | queueEmpty | allBlocked
  deriving DecidableEq, Repr

/-- An entry of a Queue Read response (R42). -/
structure QueueEntry where
  slot : Nat
  wall : Nat
  course : Nat
  designLeft : Nat
  type : Nat
  deriving DecidableEq, Repr

/-- The body of a Status response (R175). -/
structure StatusBody where
  level : Level
  clock : Option Nat
  station : Option Nat
  glue : Gate
  exposure : Gate
  stop : Gate
  stale : Bool
  hold : Bool
  held : Bool
  carriers : Nat
  queueLength : Nat
  estop : Bool
  busy : Bool
  deriving DecidableEq, Repr

/-- What a successful Claim answers (R51). -/
structure ClaimBody where
  tag : Nat
  slot : Nat
  wall : Nat
  course : Nat
  type : Nat
  bin : Nat
  cutLength : Option Nat
  closer : Bool
  deriving DecidableEq, Repr

/-- The four deviations of a Laid report, in the order of R90. -/
structure Deviations where
  topLeft : Int
  topRight : Int
  left : Int
  right : Int
  deriving DecidableEq, Repr

/-- What follows the status in a response, named by the rule that lists its fields. -/
inductive Body where
  /-- The status byte alone (R173). -/
  | empty
  /-- NoBrick (R48). -/
  | noBrick (r : NoBrickReason)
  /-- Fault (R55, R57). -/
  | faulted (r : FaultReason)
  /-- Slot Read (R16): an Empty slot is its index and state alone. -/
  | slot (index : Nat) (record : Option Slot)
  /-- Wall Read (R17). -/
  | wall (w : Wall)
  /-- Type Read (R17). -/
  | brickType (t : BrickType)
  /-- Queue Read (R42): length, Ready count, entries. -/
  | queue (length ready : Nat) (entries : List QueueEntry)
  /-- Line Read (R68). -/
  | line (carriers : List Carrier)
  /-- Read Time (R108). -/
  | time (clock : Option Nat)
  /-- Conditions Read (R116). -/
  | conditions (c : Conditions)
  /-- Option Read (R125). -/
  | options (o : Options)
  /-- Status (R175). -/
  | status (b : StatusBody)
  /-- Event Fetch (R164): vector code, latches, masks. -/
  | event (vector : Nat) (latches masks : List Bool)
  /-- Event Mask (R165): masks, latches. -/
  | masks (masks latches : List Bool)
  /-- Authority Read (R156). -/
  | authority (level : Level) (attempts : Nat) (frozen : Bool) (epl : Level) (codeStored : Bool)
  /-- Watch Read (R161). -/
  | watches (w : Vector Watch Config.watchCount)
  /-- Watch Set (R158): the record as written. -/
  | watch (w : Watch)
  /-- Sweep endings (R141). -/
  | sweepEnd (reason : SweepEnd) (last : Option Nat) (remaining : Nat)
  /-- Audit pass (R145). -/
  | auditPass (count : Nat)
  /-- Audit failure (R145). -/
  | auditFail (failure : AuditFailure) (slot above : Nat)
  /-- Audit abort (R145). -/
  | auditAborted (last : Option Nat) (remaining : Nat)
  /-- Hold and Release (R65). -/
  | hold (carriers : Nat) (held : Bool)
  /-- Unlock (R151). -/
  | unlock (level : Level) (attempts : Nat)
  /-- Lock (R152). -/
  | level (l : Level)
  /-- Close and Wall Free (R24, R25): slots retired or emptied. -/
  | count (n : Nat)
  /-- Slot Load (R128): records loaded, and a result code for each record. -/
  | load (loaded : Nat) (codes : List Status)
  /-- Slot Amend, Clear, Lift (R132, R135, R100). -/
  | slotState (s : SlotState)
  /-- Withhold and Free (R134). -/
  | withheld (s : SlotState) (flag : Bool)
  /-- Accept (R98). -/
  | accepted (s : SlotState) (complete : Bool)
  /-- Set Time (R107). -/
  | clockSet (value : Nat)
  /-- Set Option (R124). -/
  | option (code : Nat) (value : Int)
  /-- Claim (R51). -/
  | claim (b : ClaimBody)
  /-- Cut Done (R52): tag and stage. -/
  | cutDone (tag : Nat) (stage : Stage)
  /-- Glued (R52, R54): tag, stage, open time, deadline. -/
  | glued (tag : Nat) (stage : Stage) (openTime deadline : Nat)
  /-- Target Request (R52, R56): tag, stage, T, L, length, corrected. -/
  | target (tag : Nat) (stage : Stage) (t : Target) (corrected : Bool)
  /-- Laid (R52, R91): the tag, that the carrier has left the line, the state entered, the deviations. -/
  | laid (tag : Nat) (s : SlotState) (d : Deviations)
  /-- Reject (R52, R60, R61): the tag, that the carrier has left the line, the echoed reason, the slot's state. -/
  | rejected (tag : Nat) (reason : Nat) (s : SlotState)
  /-- Conditions (R112). -/
  | weather (c : Conditions)
  deriving DecidableEq, Repr

/-- A response: the echoed code, the status and what follows it (R173). -/
structure Response where
  code : Byte
  status : Status
  body : Body
  deriving DecidableEq, Repr

/-! ### Ports (spec/10) -/

/-- A frame receiver (R170): hunting for A5h, or collecting a frame with the bytes that came after its A5h. -/
inductive Receiver where
  | hunting
  | collecting (bytes : List Byte)
  deriving DecidableEq, Repr

/-- A link port. -/
structure PortState where
  /-- The slot index the port remembers (R15). -/
  cursor : Nat
  receiver : Receiver
  /-- The responses the port has sent since power-on reset, in the order it sent them (assumption 5). -/
  sent : List Response
  /-- An ending response that is due and waits until the port is free to send (R174). -/
  waiting : Option Response
  /-- An ending response that fell due while a frame was being received: it follows the answer to that frame
  (R174). -/
  behind : Option Response
  deriving DecidableEq, Repr

/-- A port after power-on reset (R174). -/
def PortState.reset : PortState := ⟨0, .hunting, [], none, none⟩

/-- What can come on a port's pair: a character, or a gap of more than 100 µs (R170; assumption 3). -/
inductive LinkInput where
  | byte (b : Byte)
  | gap
  deriving DecidableEq, Repr

/-! ### The machine -/

/-- The whole state of the part. `inputs` and `pending` are the model's own: what waits to be received and to be
taken (assumptions 1 and 3). The output lines are functions of the rest (assumption 8). -/
structure State where
  plan : Plan
  dispatcher : Dispatcher
  /-- The boom line, front carrier first (R46). -/
  line : List Carrier
  /-- Site time, absent while Unset (R105). -/
  clock : Option Nat
  conditions : Conditions
  options : Options
  engine : Engine
  authority : Authority
  events : Events
  portP : PortState
  portM : PortState
  /-- The level of the ESTOP input (R67). -/
  estop : Bool
  inputs : List (Port × LinkInput)
  pending : List Instr
  deriving DecidableEq, Repr

/-- Why the machine stops. Each is raised only in a state that a law of the part rules out (assumption 16). -/
inductive Fault where
  /-- Raised by GLUED and LAID: a carrier stands on the line while the site clock is Unset, which R54 says cannot
  be. Safe. -/
  | carrierWithoutClock
  /-- Raised by TARGET_REQUEST, LAID and REJECT: the slot a carrier names is Empty, against R46. Safe. -/
  | carrierWithoutSlot
  /-- Raised by TARGET_REQUEST and LAID: the slot of a Targeted carrier has no target part, against R56 and R89.
  Safe. -/
  | targetedWithoutTarget
  deriving DecidableEq, Repr

/-- Why a command has no meaning. -/
inductive Refusal where
  /-- Raised by exec's arms alone: the command has no meaning yet. Safe. -/
  | notModelled (mnemonic : String)
  /-- Raised by UNKNOWN_CODE, FRAME_CHECK_FAIL and FRAME_LENGTH_OUT_OF_RANGE: the term is not an instance of its
  row (its frame is a command of the port, its check matches, its length is taken), so WellFormed refuses it too
  (assumption 10). Safe. -/
  | outsideRow
  deriving DecidableEq, Repr

/-- What a command answers: a next state, a fault or a refusal. -/
abbrev Result := Host.Outcome State Fault Refusal

/-- The Authority Unit after power-on reset: the level follows the stored code (R149). -/
def Authority.powerOn (code : Option EngineerCode) : Authority where
  code := code
  level := if code.isSome then .operator else .engineer
  attempts := Config.attemptsMax
  frozen := false
  epl := .operator

/-- The state after power-on reset: what the stored code, the ESTOP input and what waits outside the part were
stays (R1, R148, R174; assumptions 6 and 7). -/
def State.powerOn (code : Option EngineerCode) (estop : Bool) (inputs : List (Port × LinkInput))
    (pending : List Instr) : State where
  plan := ⟨[], Vector.replicate Config.wallCount Wall.freeWall, Vector.replicate Config.typeCount BrickType.undefinedEntry⟩
  dispatcher := ⟨[], none, false, 0⟩
  line := []
  clock := none
  conditions := Conditions.reset
  options := Options.defaults
  engine := .idle
  authority := Authority.powerOn code
  events := Events.reset
  portP := PortState.reset
  portM := PortState.reset
  estop := estop
  inputs := inputs
  pending := pending

/-- The machine right after reset: power-on reset of a part as it leaves the factory, ESTOP released
(R148; assumptions 6 and 7). -/
def State.reset : State := State.powerOn none false [] []

end Sys2Proof.Machine
end

