-- ==== Sys2Proof/Machine/Ops.lean ====
section
/-! DEFINITION. The named operations over the tables, the watches, the latches and the ports that the meanings of
the commands share. -/

namespace Sys2Proof.Machine

open Sys2Proof

/-! ### The slot table (R1) -/

/-- The record at an index; none for an Empty slot. -/
def tableGet : SlotTable → Nat → Option Slot
  | [], _ => none
  | (j, x) :: t, i => if j = i then some x else tableGet t i

/-- Write the record at an index, keeping the indices rising. -/
def tablePut : SlotTable → Nat → Slot → SlotTable
  | [], i, x => [(i, x)]
  | (j, y) :: t, i, x =>
    if i < j then (i, x) :: (j, y) :: t
    else if i = j then (i, x) :: t
    else (j, y) :: tablePut t i x

/-- Change the record at an index; an Empty slot stays Empty. -/
def tableModify (t : SlotTable) (i : Nat) (f : Slot → Slot) : SlotTable :=
  t.map fun e => if e.1 = i then (e.1, f e.2) else e

/-- Make the slot at an index Empty: every field but index and state is removed (R1). -/
def tableErase (t : SlotTable) (i : Nat) : SlotTable := t.filter fun e => e.1 ≠ i

/-- The canonical form of the slot table: indices rise strictly, lie in the table, and no Empty slot is listed. -/
abbrev tableWf (t : SlotTable) : Prop :=
  (t.map Prod.fst).Pairwise (· < ·) ∧ ∀ e ∈ t, e.1 < Config.slotCount ∧ e.2.state ≠ .empty

/-! ### The Plan Store -/

/-- Set, Suspect and Retired slots are laid (R3). -/
def SlotState.laid : SlotState → Bool
  | .set | .suspect | .retired => true
  | _ => false

/-- The record of a slot, none when it is Empty. -/
def Plan.slot? (p : Plan) (i : Nat) : Option Slot := tableGet p.slots i

/-- The state of a slot, Empty included (R1). -/
def Plan.stateOf (p : Plan) (i : Nat) : SlotState :=
  match p.slot? i with
  | none => .empty
  | some x => x.state

/-- The slot at an index is laid; an Empty slot is not (R3, R26). -/
def Plan.isLaid (p : Plan) (i : Nat) : Bool := (p.stateOf i).laid

def Plan.putSlot (i : Nat) (x : Slot) (p : Plan) : Plan := { p with slots := tablePut p.slots i x }

def Plan.modifySlot (i : Nat) (f : Slot → Slot) (p : Plan) : Plan :=
  { p with slots := tableModify p.slots i f }

def Plan.eraseSlot (i : Nat) (p : Plan) : Plan := { p with slots := tableErase p.slots i }

/-- A wall record. Every wall index a command takes or a slot holds is below 32 (section 1.6, R2). -/
def Plan.wall (p : Plan) (w : Nat) : Wall := p.walls[w]?.getD Wall.freeWall

def Plan.modifyWall (w : Nat) (f : Wall → Wall) (p : Plan) : Plan :=
  { p with walls := p.walls.setIfInBounds w (f (p.wall w)) }

/-- A catalogue entry. -/
def Plan.brickType (p : Plan) (t : Nat) : BrickType := p.types[t]?.getD BrickType.undefinedEntry

def Plan.setType (t : Nat) (b : BrickType) (p : Plan) : Plan := { p with types := p.types.setIfInBounds t b }

/-- The non-Empty slots of a wall, in index order. -/
def Plan.slotsOf (p : Plan) (w : Nat) : SlotTable := p.slots.filter fun e => e.2.wall = w

/-- The indices of the non-Empty slots. -/
def Plan.indices (p : Plan) : List Nat := p.slots.map Prod.fst

/-- The followers of a slot: the non-Empty slots whose supports list it (R3). -/
def Plan.followers (p : Plan) (i : Nat) : List Nat :=
  (p.slots.filter fun e => e.2.supports.contains i).map Prod.fst

/-- The wall's base plus (course + 1) times its course height (R3). -/
def Plan.designTop (p : Plan) (x : Slot) : Nat :=
  (p.wall x.wall).params.base + (x.course + 1) * (p.wall x.wall).params.courseHeight

/-- The plan cut length if present, else the length of the slot's type (R3). -/
def Plan.fullLength (p : Plan) (x : Slot) : Nat := x.planCut.getD (p.brickType x.type).length

/-- The neighbours a slot names. -/
def Slot.neighbours (x : Slot) : List Nat := x.left.toList ++ x.right.toList

/-! ### Lifted to the state -/

def State.modifySlot (i : Nat) (f : Slot → Slot) (s : State) : State :=
  { s with plan := s.plan.modifySlot i f }

def State.putSlot (i : Nat) (x : Slot) (s : State) : State := { s with plan := s.plan.putSlot i x }

def State.eraseSlot (i : Nat) (s : State) : State := { s with plan := s.plan.eraseSlot i }

def State.modifyWall (w : Nat) (f : Wall → Wall) (s : State) : State :=
  { s with plan := s.plan.modifyWall w f }

/-- The slot count rises by one when a slot of the wall leaves Empty (R9). -/
def State.gainSlot (w : Nat) (s : State) : State :=
  s.modifyWall w fun x => { x with slotCount := x.slotCount + 1 }

/-- The slot count falls by one when a slot of the wall enters Empty (R9). -/
def State.loseSlot (w : Nat) (s : State) : State :=
  s.modifyWall w fun x => { x with slotCount := x.slotCount - 1 }

/-- The laid count rises by one when a slot of the wall gains an as-laid part (R9). -/
def State.gainLaid (w : Nat) (s : State) : State :=
  s.modifyWall w fun x => { x with laidCount := x.laidCount + 1 }

/-- The laid count falls by one when a slot of the wall loses its as-laid part (R9). -/
def State.loseLaid (w : Nat) (s : State) : State :=
  s.modifyWall w fun x => { x with laidCount := x.laidCount - 1 }

/-- The audited flag is cleared by an edit of the wall's slots (R10). -/
def State.clearAudited (w : Nat) (s : State) : State := s.modifyWall w fun x => { x with audited := false }

/-! ### Watches (R159) -/

/-- A watch matches a slot that has entered a state (R159). -/
def Watch.fits (w : Watch) (x : Slot) (st : SlotState) : Bool :=
  w.enabled && w.wall.all (· == x.wall) && w.course.all (· == x.course) && w.entered == st

/-- What a match does to the watch; a Once watch disables itself (R159). -/
def Watch.record (w : Watch) (i : Nat) (time : Option Nat) : Watch where
  enabled := w.enabled && w.mode == .every
  wall := w.wall
  course := w.course
  entered := w.entered
  mode := w.mode
  latched := true
  count := if w.count < Config.watchCountMax then w.count + 1 else w.count
  lastSlot := some i
  lastTime := time

/-- Every watch record changes by one rule; over the list of records, so that it evaluates. -/
def eachWatch (f : Watch → Watch) (v : Vector Watch Config.watchCount) : Vector Watch Config.watchCount :=
  ⟨(v.toList.map f).toArray, by simp⟩

/-- Present a slot that has entered a state to every watch (R159, R160). -/
def Events.present (i : Nat) (x : Slot) (st : SlotState) (time : Option Nat) (e : Events) : Events :=
  { e with watches := eachWatch (fun w => if w.fits x st then w.record i time else w) e.watches }

/-- Present the slot at an index, as it stands, as having entered a state. -/
def State.present (i : Nat) (st : SlotState) (s : State) : State :=
  match s.plan.slot? i with
  | none => s
  | some x => { s with events := s.events.present i x st s.clock }

/-- A slot takes new fields and enters a state that a watch can name, and is presented (R159). -/
def State.enter (i : Nat) (st : SlotState) (f : Slot → Slot) (s : State) : State :=
  (s.modifySlot i fun x => { f x with state := st }).present i st

/-! ### Latches (R162) -/

def State.latchPlanFault (s : State) : State := { s with events := { s.events with planFault := true } }
def State.latchSuspect (s : State) : State := { s with events := { s.events with suspect := true } }
def State.latchWallComplete (s : State) : State := { s with events := { s.events with wallComplete := true } }
def State.latchExpiry (s : State) : State := { s with events := { s.events with expiry := true } }

/-- Latch GateChange and Stale where an event calls for it (R122). -/
def State.latchWeather (gateChange stale : Bool) (s : State) : State :=
  { s with events :=
    { s.events with gateChange := s.events.gateChange || gateChange, stale := s.events.stale || stale } }

/-- Every latch of port M is clear (R169). -/
def Events.clearMachinePort (e : Events) : Events :=
  { e with expiry := false, gateChange := false, stale := false }

/-! ### Ports -/

def State.port (s : State) : Port → PortState
  | .P => s.portP
  | .M => s.portM

def State.setPort (p : Port) (x : PortState) (s : State) : State :=
  match p with
  | .P => { s with portP := x }
  | .M => { s with portM := x }

/-- The response a port sent last. -/
def PortState.answer (x : PortState) : Option Response := x.sent.getLast?

/-- A frame is answered: what waits is sent first, and the ending response that was held behind this answer waits now
until the port is free (R174). -/
def PortState.send (r : Response) (x : PortState) : PortState :=
  { x with sent := x.sent ++ x.waiting.toList ++ [r], waiting := x.behind, behind := none }

/-- The frame being received has come to nothing to answer yet (it was discarded or dropped, or is a Sweep or an Audit
that is taken): the ending response held behind it waits no longer for its answer (R174). -/
def PortState.release (x : PortState) : PortState :=
  match x.behind with
  | none => x
  | some r => { x with sent := x.sent ++ x.waiting.toList, waiting := some r, behind := none }

/-- The response of a sweep or an audit falls due: a hunting port sends it after what is already due, and a port that
receives a frame holds it behind the answer to that frame (R174). -/
def PortState.ending (r : Response) (x : PortState) : PortState :=
  match x.receiver with
  | .hunting =>
    { x with sent := x.sent ++ x.waiting.toList ++ x.behind.toList ++ [r], waiting := none, behind := none }
  | .collecting _ => { x.release with behind := some r }

/-- A port sends the response of a command: the code echoed, a status, and what follows it (R173, R174). -/
def State.reply (p : Port) (code : Byte) (st : Status) (b : Body) (s : State) : State :=
  s.setPort p ((s.port p).send ⟨code, st, b⟩)

/-- A refusal, or any answer of the status byte alone (R173). -/
def State.refuse (p : Port) (code : Byte) (st : Status) (s : State) : State := s.reply p code st .empty

/-- The port's cursor becomes the resolved index (R15). -/
def State.setCursor (p : Port) (i : Nat) (s : State) : State :=
  s.setPort p { s.port p with cursor := i }

def State.setReceiver (p : Port) (r : Receiver) (s : State) : State :=
  s.setPort p { s.port p with receiver := r }

/-- The frame a port was receiving has no answer yet, or none at all (R174). -/
def State.release (p : Port) (s : State) : State := s.setPort p (s.port p).release

/-- A frame is discarded or dropped: the receiver hunts again and nothing is answered (R170, R171, R174). -/
def State.discardFrame (p : Port) (s : State) : State := (s.setReceiver p .hunting).release p

/-- The response of a sweep or an audit falls due at the step that ends it (R141, R145, R174). -/
def State.dueOnPlanPort (r : Response) (s : State) : State := { s with portP := s.portP.ending r }

/-! ### The boom line (R46) -/

/-- The carrier a tag names. -/
def State.carrier? (s : State) (tag : Nat) : Option Carrier := s.line.find? fun c => c.tag == tag

/-- The carrier a tag names is at the front. -/
def State.isFront (s : State) (tag : Nat) : Bool := s.line.head?.any fun c => c.tag == tag

/-- A carrier's record changes; its place does not. -/
def State.modifyCarrier (tag : Nat) (f : Carrier → Carrier) (s : State) : State :=
  { s with line := s.line.map fun c => if c.tag == tag then f c else c }

/-- A carrier leaves the line; the others keep their order (R46). -/
def State.removeCarrier (tag : Nat) (s : State) : State :=
  { s with line := s.line.filter fun c => c.tag != tag }

/-- The lowest tag no carrier holds (R46); a line below eight carriers has one. -/
def State.freeTag (s : State) : Nat :=
  ((List.range Config.lineCapacity).find? fun t => !(s.line.any fun c => c.tag == t)).getD 0

end Sys2Proof.Machine
end

