-- ==== Sys2Proof/Machine/Flags.lean ====
section
/-! DEFINITION. The flags and lines that are functions of the state: the busy flag, HELD, STOPX and the attention
lines, the latch and mask lists of each port, the gates and the staleness time. -/

namespace Sys2Proof.Machine

open Sys2Proof

/-- Port P is Busy exactly while a context exists (R137). -/
def State.busy (s : State) : Bool := s.engine != .idle

/-- HELD is asserted exactly while the hold request is requested and the boom line is empty (R66). -/
def State.held (s : State) : Bool := s.dispatcher.hold && s.line.isEmpty

/-- STOPX is asserted exactly while a carrier on the boom line is Faulted (R57). -/
def State.stopx (s : State) : Bool := s.line.any fun c => c.stage == .faulted

/-- The latches of a port's sources in vector-code order (R162). -/
def Events.latches (e : Events) : Port → List Bool
  | .P => [e.planFault, e.suspect, e.wallComplete] ++ e.watches.toList.map Watch.latched
  | .M => [e.expiry, e.gateChange, e.stale]

/-- The masks of a port's sources in vector-code order; set means masked (R163). -/
def Events.masks (e : Events) : Port → List Bool
  | .P => (List.range 11).map fun k => e.maskP.getLsbD k
  | .M => (List.range 3).map fun k => e.maskM.getLsbD k

/-- Which sources of a port are both latched and unmasked, in vector-code order (R163, R164). -/
def Events.eligible (e : Events) (p : Port) : List Bool :=
  (e.latches p).zipWith (fun l m => l && !m) (e.masks p)

/-- The lowest vector code that is latched and unmasked; 0, named None, when there is none (R164). -/
def Events.vector (e : Events) (p : Port) : Nat :=
  match (e.eligible p).findIdx? id with
  | none => 0
  | some k => k + 1

/-- A port's attention line: a source is both latched and unmasked (R163). -/
def State.attention (s : State) (p : Port) : Bool := (s.events.eligible p).any id

/-- ATTN-P and ATTN-M (R163). -/
def State.attnP (s : State) : Bool := s.attention .P
def State.attnM (s : State) : Bool := s.attention .M

/-- Clear the latch of a vector code; for a watch source, the watch's latched field (R162, R164). -/
def Events.clearLatch (e : Events) : Port → Nat → Events
  | .P, 1 => { e with planFault := false }
  | .P, 2 => { e with suspect := false }
  | .P, 3 => { e with wallComplete := false }
  | .P, n =>
    match e.watches[n - 4]? with
    | none => e
    | some w => { e with watches := e.watches.setIfInBounds (n - 4) { w with latched := false } }
  | .M, 1 => { e with expiry := false }
  | .M, 2 => { e with gateChange := false }
  | .M, 3 => { e with stale := false }
  | .M, _ => e

/-! ### The conditions record -/

/-- The staleness time of a record that is not stale: the last report plus 30, held at the largest clock value
(R111). -/
def Conditions.stalenessTime (c : Conditions) : Option Nat :=
  if c.stale then none else c.lastReport.map fun t => min (t + Config.staleAfter) Config.maxTime

/-- Each gate that was Open becomes Closed (R120). -/
def Conditions.closeGates (c : Conditions) : Conditions :=
  { c with glue := .closed, exposure := .closed, stop := .closed }

/-- One or more of the three gates differ (R122). -/
def Conditions.gatesDiffer (c d : Conditions) : Bool :=
  c.glue != d.glue || c.exposure != d.exposure || c.stop != d.stop

/-- The glue gate follows the temperature, with no hysteresis (R117). -/
def glueGate (o : Options) (temperature : Int) : Gate :=
  if o.tGlueMin ≤ temperature ∧ temperature ≤ o.tGlueMax then .opened else .closed

/-- A wind gate closes at or above one threshold and opens below another (R118, R119). -/
def windGate (closeAt openBelow : Int) (before : Gate) (wind : Nat) : Gate :=
  match before with
  | .opened => if closeAt ≤ (wind : Int) then .closed else .opened
  | .closed => if (wind : Int) < openBelow then .opened else .closed

/-- The three gates evaluated against the stored values (R117 to R119). -/
def Conditions.evaluateGates (o : Options) (c : Conditions) : Conditions :=
  { c with
    glue := glueGate o c.temperature
    exposure := windGate o.exposureClose o.exposureOpen c.exposure c.wind
    stop := windGate o.stopClose o.stopOpen c.stop c.wind }

/-! ### The level of port P -/

/-- The classes of port P's commands (R150). -/
inductive CommandClass where
  | read | operational | planShaping | authority
  deriving DecidableEq, Repr

/-- The Authority Unit admits a class (R150). -/
def Authority.admits (a : Authority) : CommandClass → Bool
  | .read => true
  | .operational => a.level == .engineer || a.epl == .operator
  | .planShaping => a.level == .engineer
  | .authority => true

end Sys2Proof.Machine
end

