-- ==== Sys2Proof/Machine/Operands.lean ====
section
/-! DEFINITION. The operand forms: slot addresses (R13 to R15), flags and optional fields as carried (R173, R177),
the ranges of a wall, a type and a slot record (R8, R11, R127, R129, R131), and the admission that every port
command passes (R172). -/

namespace Sys2Proof.Machine

open Sys2Proof

/-! ### Admission (R172 tests 3 and 4) -/

/-- A port P command: Busy while a sweep or an audit runs, then the class, then the command itself. -/
def State.onPlanPort (code : Byte) (c : CommandClass) (take : State → State) (s : State) : State :=
  if s.busy then s.refuse .P code .busy
  else if s.authority.admits c then take s
  else s.refuse .P code .authority

/-- A command both ports list: port M is never Busy and is not judged by the Authority Unit (R150, R179). -/
def State.onPort (p : Port) (code : Byte) (c : CommandClass) (take : State → State) (s : State) : State :=
  match p with
  | .P => s.onPlanPort code c take
  | .M => take s

/-! ### Slot addresses -/

/-- The order of a coordinate's slots: ascending design left, then ascending index (R13). -/
def ordinalBefore (a b : Nat × Slot) : Bool :=
  if a.2.designLeft ≠ b.2.designLeft then decide (a.2.designLeft < b.2.designLeft) else decide (a.1 < b.1)

/-- The non-Empty slots of a wall and course in the order of R13. -/
def Plan.courseOrder (p : Plan) (w c : Nat) : List Nat :=
  ((p.slots.filter fun e => e.2.wall = w ∧ e.2.course = c).insertionSort
    fun a b => ordinalBefore b a = false).map Prod.fst

/-- The slot index an address resolves to on a port, or none where it does not resolve (R13, R14, R176). -/
def State.resolve (p : Port) (a : SlotAddress) (s : State) : Option Nat :=
  match a.mode.toNat with
  | 1 =>
    let i := (a.byte2 ++ a.byte1).toNat
    if i < Config.slotCount then some i else none
  | 2 =>
    if a.byte1.toNat < Config.wallCount ∧ a.byte2.toNat < 64 then
      (s.plan.courseOrder a.byte1.toNat a.byte2.toNat)[a.byte3.toNat]?
    else none
  | 3 =>
    let i := ((s.port p).cursor : Int) + a.byte1.toInt
    if 0 ≤ i ∧ i < Config.slotCount then some i.toNat else none
  | _ => none

/-- A command that carries one slot address: BadAddress where it does not resolve; else the port's cursor moves
and the command goes on with the index (R14, R15). -/
def State.withAddress (p : Port) (code : Byte) (a : SlotAddress) (take : Nat → State → State) (s : State) : State :=
  match s.resolve p a with
  | none => s.refuse p code .badAddress
  | some i => take i (s.setCursor p i)

/-- A port P command on a non-Empty slot: an Empty one is refused with BadState. -/
def State.withSlot (code : Byte) (a : SlotAddress) (take : Nat → Slot → State → State) (s : State) : State :=
  s.withAddress .P code a fun i s =>
    match s.plan.slot? i with
    | none => s.refuse .P code .badState
    | some x => take i x s

/-- A port P command on a wall: an index above 31 is refused with BadAddress before any other test
(section 1.6). -/
def State.withWall (code : Byte) (wall : Byte) (take : Nat → Wall → State → State) (s : State) : State :=
  if wall.toNat < Config.wallCount then take wall.toNat (s.plan.wall wall.toNat) s
  else s.refuse .P code .badAddress

/-! ### Carried fields -/

/-- A flag byte: 0 clear, 1 set; any other value is beyond its range (R173; assumption 11). -/
def flagOf (b : Byte) : Option Bool :=
  match b.toNat with
  | 0 => some false
  | 1 => some true
  | _ => none

/-- An optional slot index: FFFFh means absent (R173, R177). -/
def linkOf (h : Half) : Option Nat := if h = 0xFFFF#16 then none else some h.toNat

/-- A plan cut length: 0 means absent (R173, R177). -/
def planCutOf (h : Half) : Option Nat := if h = 0#16 then none else some h.toNat

/-- The slot state a code names, in the order of R1 (R173). -/
def slotStateOf (b : Byte) : Option SlotState :=
  match b.toNat with
  | 0 => some .empty
  | 1 => some .planned
  | 2 => some .ready
  | 3 => some .claimed
  | 4 => some .set
  | 5 => some .suspect
  | 6 => some .fault
  | 7 => some .retired
  | _ => none

/-- An entered state of a watch: any slot state but Empty and Planned (R157, R158). -/
def enteredStateOf (b : Byte) : Option SlotState :=
  match slotStateOf b with
  | some .empty => none
  | some .planned => none
  | r => r

/-- The supports a record carries: the first count of the three indices (R177). -/
def supportsOf (f : DrawnFields) : List Nat :=
  [f.support0.toNat, f.support1.toNat, f.support2.toNat].take f.supportCount.toNat

/-! ### Ranges -/

/-- A value lies from lo to hi, both included. -/
def inRange (lo hi x : Nat) : Bool := lo ≤ x && x ≤ hi

/-- A plan cut fits: absent, or a multiple of 5 from lo to hi (R2). -/
def planCutFits (lo hi : Nat) : Option Nat → Bool
  | none => true
  | some c => c % 5 == 0 && inRange lo hi c

/-- A slot index is 0 to 4095. -/
def isIndex (i : Nat) : Bool := i < Config.slotCount

/-- Supports and neighbours in their ranges: at most three supports, distinct, each link 0 to 4095 (R127 test 5,
R129, R131). -/
def linksInRange (supportCount : Nat) (supports : List Nat) (left right : Option Nat) : Bool :=
  supportCount ≤ 3 && decide supports.Nodup && supports.all isIndex && left.all isIndex && right.all isIndex

/-- The parameters as carried. -/
def wallParamsOf (f : WallFields) : WallParams where
  base := f.base.toNat
  courseHeight := f.courseHeight.toNat
  courseCount := f.courseCount.toNat
  bedMin := f.bedMin.toNat
  bedMax := f.bedMax.toNat
  jointMin := f.jointMin.toNat
  jointNominal := f.jointNominal.toNat
  jointMax := f.jointMax.toNat
  driftMax := f.driftMax.toNat
  heightTol := f.heightTol.toNat
  positionTol := f.positionTol.toNat

/-- The ranges and relations of R8, judged on the whole parameter set. -/
def WallParams.inRange (p : WallParams) : Bool :=
  Machine.inRange 0 100000 p.base && Machine.inRange 500 5000 p.courseHeight && Machine.inRange 1 64 p.courseCount
    && Machine.inRange 0 200 p.bedMin && Machine.inRange 0 200 p.bedMax
    && Machine.inRange 0 200 p.jointMin && Machine.inRange 0 200 p.jointNominal && Machine.inRange 0 200 p.jointMax
    && Machine.inRange 0 500 p.driftMax && Machine.inRange 1 500 p.heightTol && Machine.inRange 1 500 p.positionTol
    && p.bedMin ≤ p.bedMax && p.jointMin ≤ p.jointNominal && p.jointNominal + 4 ≤ p.jointMax

/-- The entry a Type Define body gives, or none where a field is out of its range; the range tests are skipped
when the defined flag is clear (R11, R12). -/
def typeEntryOf (f : TypeFields) : Option BrickType :=
  match flagOf f.defined with
  | none => none
  | some false => some BrickType.undefinedEntry
  | some true =>
    match flagOf f.cuttable with
    | none => none
    | some cuttable =>
      if inRange 500 6000 f.length.toNat && inRange 400 5000 f.height.toNat && inRange 0 15 f.bin.toNat
          && inRange 100 f.length.toNat f.minCut.toNat then
        some ⟨true, f.length.toNat, f.height.toNat, f.bin.toNat, cuttable, f.minCut.toNat⟩
      else none

/-- The slot a record describes, in a given state, with flags clear and no optional part (R2, R4, R128, R130). -/
def slotOfFields (f : PlanFields) (st : SlotState) : Slot where
  state := st
  wall := f.wall.toNat
  course := f.course.toNat
  designLeft := f.drawn.designLeft.toNat
  type := f.drawn.type.toNat
  planCut := planCutOf f.drawn.planCut
  supports := supportsOf f.drawn
  left := linkOf f.drawn.left
  right := linkOf f.drawn.right
  reach := f.drawn.reach
  withheld := false
  openLeft := false
  corrected := false
  late := false
  tag := none
  target := none
  asLaid := none
  faultReason := none

/-- Ranges that Slot Load (test 5 of R127) and Slot Amend (test 6 of R131) share, on the slot as it would stand
and the number of supports carried. -/
def Plan.fieldsInRange (p : Plan) (supportCount : Nat) (x : Slot) : Bool :=
  let t := p.brickType x.type
  x.course < (p.wall x.wall).params.courseCount && x.designLeft ≤ Config.positionMax
    && x.type < Config.typeCount && t.defined && planCutFits t.minCut t.length x.planCut
    && linksInRange supportCount x.supports x.left x.right

/-- Ranges of Slot Restore (test 5 of R129): the course count is not read, and the type need not be defined. -/
def Plan.restoreInRange (p : Plan) (supportCount : Nat) (x : Slot) (a : AsLaid) : Bool :=
  let t := p.brickType x.type
  x.course < 64 && x.designLeft ≤ Config.positionMax && x.type < Config.typeCount
    && (if t.defined then planCutFits t.minCut t.length x.planCut else planCutFits 100 6000 x.planCut)
    && linksInRange supportCount x.supports x.left x.right
    && a.left ≤ Config.positionMax && a.right ≤ Config.positionMax
    && a.topLeft ≤ Config.topMax && a.topRight ≤ Config.topMax

/-- The as-laid part a Slot Restore carries (R129). -/
def asLaidOf (f : AsLaidFields) : AsLaid :=
  ⟨f.left.toNat, f.right.toNat, f.topLeft.toNat, f.topRight.toNat, f.timeLaid.toNat⟩

end Sys2Proof.Machine
end

