-- ==== Sys2Proof/Machine/Authority.lean ====
section
/-! DEFINITION. The authority commands (spec/08): UNLOCK, LOCK, SET_CODE, FREEZE, SET_EPL. -/

namespace Sys2Proof.Machine

open Sys2Proof

/-- What an Unlock does to the unit and its answer, its tests in order (R151). -/
def Authority.tryUnlock (a : Authority) (code : EngineerCode) : Status × Authority :=
  if a.frozen then (.frozen, a)
  else if a.level = .engineer then (.ok, a)
  else if a.attempts = 0 then (.exhausted, a)
  else if a.code = some code then (.ok, { a with level := .engineer })
  else (.authority, { a with attempts := a.attempts - 1 })

/-- UNLOCK (R151): the response carries the level and the counter, whatever the answer. -/
def execUnlock (code : EngineerCode) (s : State) : Result :=
  .next (s.onPlanPort 0x40 .authority fun s =>
    let r := s.authority.tryUnlock code
    { s with authority := r.2 }.reply .P 0x40 r.1 (.unlock r.2.level r.2.attempts))

/-- The level becomes Operator when a code is stored, and stays as it is when none is (R152). -/
def Authority.lock (a : Authority) : Authority := if a.code.isSome then { a with level := .operator } else a

/-- LOCK (R152). -/
def execLock (s : State) : Result :=
  .next (s.onPlanPort 0x41 .authority fun s =>
    let a := s.authority.lock
    { s with authority := a }.reply .P 0x41 .ok (.level a.level))

/-- SET_CODE (R153): Frozen before the level; a presence flag other than 0 and 1 is out of range (assumption 11). -/
def execSetCode (presence : Byte) (code : EngineerCode) (s : State) : Result :=
  .next (s.onPlanPort 0x42 .authority fun s =>
    if s.authority.frozen then s.refuse .P 0x42 .frozen
    else if s.authority.level = .operator then s.refuse .P 0x42 .authority
    else
      match flagOf presence with
      | none => s.refuse .P 0x42 .badValue
      | some present =>
        { s with authority := { s.authority with code := if present then some code else none } }.refuse .P 0x42 .ok)

/-- FREEZE (R154). -/
def execFreeze (s : State) : Result :=
  .next (s.onPlanPort 0x43 .authority fun s =>
    { s with authority := { s.authority with frozen := true } }.refuse .P 0x43 .ok)

/-- The level a byte names: 0 Operator, 1 Engineer (section 10.5). -/
def levelOf (b : Byte) : Option Level :=
  match b.toNat with
  | 0 => some .operator
  | 1 => some .engineer
  | _ => none

/-- SET_EPL (R155). -/
def execSetEpl (level : Byte) (s : State) : Result :=
  .next (s.onPlanPort 0x3B .planShaping fun s =>
    match levelOf level with
    | none => s.refuse .P 0x3B .badValue
    | some l => { s with authority := { s.authority with epl := l } }.refuse .P 0x3B .ok)

end Sys2Proof.Machine
end

