-- ==== Sys2Proof/Decode.lean ====
section
/-! DEFINITION. From bits to commands. The opcode table gives no row any bits, so no word spells a command by it
(assumption 20). What the data book does give is the frame: its check (R171), the command lists with the body sizes
each entry allows (R172, section 10.5) and the layout of each body (R176 to R179). A frame is decoded here once;
the encoder after it writes the frame of a command from the same layouts. -/

namespace Sys2Proof

/-- The command a word spells by the opcode table's bits: no row of this table has any (assumption 20). -/
def decodeTableWord (_nbits _w : Nat) : Option Instr := none

/-! ### Fields of a body, little-endian (R173) -/

/-- The byte at an offset of a body; the body sizes of the command lists keep the offset inside it. -/
def byteAt (body : List Byte) (k : Nat) : Byte := body.getD k 0

/-- A two-byte field, low byte first. -/
def halfAt (body : List Byte) (k : Nat) : Half := byteAt body (k + 1) ++ byteAt body k

/-- A four-byte field, low byte first. -/
def wordAt (body : List Byte) (k : Nat) : Word := halfAt body (k + 2) ++ halfAt body k

/-- The 16 bytes of an engineer code. -/
def codeAt (body : List Byte) (k : Nat) : EngineerCode :=
  wordAt body (k + 12) ++ wordAt body (k + 8) ++ wordAt body (k + 4) ++ wordAt body k

/-- A slot address, four bytes (R176). -/
def addressAt (body : List Byte) (k : Nat) : SlotAddress :=
  ⟨byteAt body k, byteAt body (k + 1), byteAt body (k + 2), byteAt body (k + 3)⟩

/-- Bytes 4 to 22 of a load record (R177). -/
def drawnFieldsAt (body : List Byte) (k : Nat) : DrawnFields where
  designLeft := wordAt body k
  type := byteAt body (k + 4)
  planCut := halfAt body (k + 5)
  supportCount := byteAt body (k + 7)
  support0 := halfAt body (k + 8)
  support1 := halfAt body (k + 10)
  support2 := halfAt body (k + 12)
  left := halfAt body (k + 14)
  right := halfAt body (k + 16)
  reach := byteAt body (k + 18)

/-- Bytes 2 to 22 of a load record (R177). -/
def planFieldsAt (body : List Byte) (k : Nat) : PlanFields :=
  ⟨byteAt body k, byteAt body (k + 1), drawnFieldsAt body (k + 2)⟩

/-- One load record of 23 bytes (R177). -/
def loadRecordAt (body : List Byte) (k : Nat) : LoadRecord :=
  ⟨halfAt body k, planFieldsAt body (k + 2)⟩

/-- The load records of a Slot Load body, 23 bytes each. -/
def loadRecordsOf (body : List Byte) : List LoadRecord :=
  (List.range (body.length / 23)).map fun n => loadRecordAt body (23 * n)

/-- The as-laid part of a Slot Restore body (R177). -/
def asLaidFieldsAt (body : List Byte) (k : Nat) : AsLaidFields :=
  ⟨wordAt body k, wordAt body (k + 4), wordAt body (k + 8), wordAt body (k + 12), wordAt body (k + 16)⟩

/-- The wall parameters of Wall Define and Wall Set (code 20h). -/
def wallFieldsAt (body : List Byte) (k : Nat) : WallFields where
  base := wordAt body k
  courseHeight := halfAt body (k + 4)
  courseCount := byteAt body (k + 6)
  bedMin := byteAt body (k + 7)
  bedMax := byteAt body (k + 8)
  jointMin := byteAt body (k + 9)
  jointNominal := byteAt body (k + 10)
  jointMax := byteAt body (k + 11)
  driftMax := halfAt body (k + 12)
  heightTol := halfAt body (k + 14)
  positionTol := halfAt body (k + 16)

/-- The catalogue entry of Type Define (code 28h). -/
def typeFieldsAt (body : List Byte) (k : Nat) : TypeFields :=
  ⟨byteAt body k, halfAt body (k + 1), halfAt body (k + 3), byteAt body (k + 5), byteAt body (k + 6),
    halfAt body (k + 7)⟩

/-- The body of Watch Set (code 0Eh). -/
def watchFieldsAt (body : List Byte) (k : Nat) : WatchFields :=
  ⟨byteAt body k, byteAt body (k + 1), byteAt body (k + 2), byteAt body (k + 3), byteAt body (k + 4),
    byteAt body (k + 5)⟩

/-- The operands of a Sweep; its operation is byte 7 (code 10h). -/
def sweepFieldsOf (body : List Byte) : SweepFields :=
  ⟨addressAt body 0, halfAt body 4, byteAt body 6, halfAt body 8, byteAt body 10, byteAt body 11⟩

/-- A Sweep names its row by its operation byte; a byte that names no operation stays with SWEEP_WITHHOLD,
whose class it shares (R150; assumption 9). -/
def sweepOf (body : List Byte) : Instr :=
  match (byteAt body 7).toNat with
  | 1 => .sweepFree (sweepFieldsOf body)
  | 2 => .sweepShift (sweepFieldsOf body)
  | 3 => .sweepRetype (sweepFieldsOf body)
  | _ => .sweepWithhold (byteAt body 7) (sweepFieldsOf body)

/-- The figures of a Laid report (R178). -/
def laidFieldsAt (body : List Byte) (k : Nat) : LaidFields :=
  ⟨wordAt body k, wordAt body (k + 4), wordAt body (k + 8), wordAt body (k + 12)⟩

/-! ### The command lists (section 10.5) -/

/-- Entries both ports list, but Event Mask: code and body size. -/
def sharedSizes : List (Nat × List Nat) :=
  [(0x01, [4]), (0x02, [1]), (0x03, [1]), (0x04, [1]), (0x05, [0]), (0x06, [0]), (0x07, [0]), (0x08, [0]),
   (0x09, [0]), (0x0A, [0])]

/-- The command list of a port: each code with the body sizes its entry admits. -/
def commandSizes : Port → List (Nat × List Nat)
  | .P => sharedSizes ++
      [(0x0B, [2]), (0x0C, [0]), (0x0D, [0]), (0x0E, [6]), (0x0F, [1]), (0x10, [12]), (0x11, [0]), (0x12, [0]),
       (0x13, [0]), (0x20, [20]), (0x21, [19]), (0x22, [1]), (0x23, [1]), (0x24, [1]), (0x25, [1]), (0x26, [1]),
       (0x27, [2]), (0x28, [10]), (0x30, [23, 46, 69, 92, 115, 138, 161, 184]), (0x31, [45]), (0x32, [24]),
       (0x33, [4]), (0x34, [4]), (0x35, [4]), (0x36, [4]), (0x37, [4]), (0x38, [4]), (0x39, [4]), (0x3A, [5]),
       (0x3B, [1]), (0x40, [16]), (0x41, [0]), (0x42, [17]), (0x43, [0])]
  | .M => sharedSizes ++
      [(0x0B, [1]), (0x50, [1]), (0x51, [0]), (0x52, [1]), (0x53, [1]), (0x54, [1]), (0x55, [17]), (0x56, [2]),
       (0x57, [2]), (0x58, [2])]

/-- The body sizes a code's entry admits, or none where the code names no command of the port (R172 test 1). -/
def bodySizes (p : Port) (code : Byte) : Option (List Nat) :=
  ((commandSizes p).find? fun e => e.1 == code.toNat).map Prod.snd

/-- The frame passes tests 1 and 2 of R172. -/
def isCommand (p : Port) (code : Byte) (size : Nat) : Bool :=
  match bodySizes p code with
  | none => false
  | some sizes => sizes.contains size

/-- The command of a code both ports list (R179). -/
def decodeShared (p : Port) (code : Byte) (body : List Byte) : Option Instr :=
  match code.toNat with
  | 0x01 => some (.slotRead p (addressAt body 0))
  | 0x02 => some (.wallRead p (byteAt body 0))
  | 0x03 => some (.typeRead p (byteAt body 0))
  | 0x04 => some (.queueRead p (byteAt body 0))
  | 0x05 => some (.lineRead p)
  | 0x06 => some (.readTime p)
  | 0x07 => some (.conditionsRead p)
  | 0x08 => some (.optionRead p)
  | 0x09 => some (.status p)
  | 0x0A => some (.eventFetch p)
  | _ => none

/-- The command of a code only port P lists. -/
def decodePlanPort (code : Byte) (body : List Byte) : Option Instr :=
  match code.toNat with
  | 0x0B => some (.eventMask .P (halfAt body 0))
  | 0x0C => some .authorityRead
  | 0x0D => some .watchRead
  | 0x0E => some (.watchSet (watchFieldsAt body 0))
  | 0x0F => some (.audit (byteAt body 0))
  | 0x10 => some (sweepOf body)
  | 0x11 => some .abort
  | 0x12 => some .hold
  | 0x13 => some .release
  | 0x20 => some (.wallDefine (byteAt body 0) (wallFieldsAt body 1) (byteAt body 19))
  | 0x21 => some (.wallSet (byteAt body 0) (wallFieldsAt body 1))
  | 0x22 => some (.wallOpen (byteAt body 0))
  | 0x23 => some (.pause (byteAt body 0))
  | 0x24 => some (.resume (byteAt body 0))
  | 0x25 => some (.close (byteAt body 0))
  | 0x26 => some (.wallFree (byteAt body 0))
  | 0x27 => some (.priority (byteAt body 0) (byteAt body 1))
  | 0x28 => some (.typeDefine (byteAt body 0) (typeFieldsAt body 1))
  | 0x30 => some (.slotLoad (loadRecordsOf body))
  | 0x31 => some (.slotRestore (addressAt body 0) (planFieldsAt body 4) (asLaidFieldsAt body 25))
  | 0x32 => some (.slotAmend (addressAt body 0) (byteAt body 4) (drawnFieldsAt body 5))
  | 0x33 => some (.slotDelete (addressAt body 0))
  | 0x34 => some (.withhold (addressAt body 0))
  | 0x35 => some (.free (addressAt body 0))
  | 0x36 => some (.clear (addressAt body 0))
  | 0x37 => some (.accept (addressAt body 0))
  | 0x38 => some (.lift (addressAt body 0))
  | 0x39 => some (.setTime (wordAt body 0))
  | 0x3A => some (.setOption (byteAt body 0) (wordAt body 1))
  | 0x3B => some (.setEpl (byteAt body 0))
  | 0x40 => some (.unlock (codeAt body 0))
  | 0x41 => some .lock
  | 0x42 => some (.setCode (byteAt body 0) (codeAt body 1))
  | 0x43 => some .freeze
  | _ => none

/-- The command of a code only port M lists. -/
def decodeMachinePort (code : Byte) (body : List Byte) : Option Instr :=
  match code.toNat with
  | 0x0B => some (.eventMask .M ((byteAt body 0).setWidth 16))
  | 0x50 => some (.station (byteAt body 0))
  | 0x51 => some .claim
  | 0x52 => some (.cutDone (byteAt body 0))
  | 0x53 => some (.glued (byteAt body 0))
  | 0x54 => some (.targetRequest (byteAt body 0))
  | 0x55 => some (.laid (byteAt body 0) (laidFieldsAt body 1))
  | 0x56 => some (.reject (byteAt body 0) (byteAt body 1))
  | 0x57 => some (.binStatus (halfAt body 0))
  | 0x58 => some (.conditions (byteAt body 0) (byteAt body 1))
  | _ => none

/-- The command of a code and body that pass tests 1 and 2 of R172, or none. -/
def decodeCommand (p : Port) (code : Byte) (body : List Byte) : Option Instr :=
  if isCommand p code body.length then
    match decodeShared p code body with
    | some i => some i
    | none =>
      match p with
      | .P => decodePlanPort code body
      | .M => decodeMachinePort code body
  else none

/-! ### The check (R171) -/

/-- One bit of the 16-bit CRC with generator 1021h. -/
def crcBit (c : Half) : Half := if c.msb then (c <<< 1) ^^^ 0x1021#16 else c <<< 1

/-- One byte of the CRC, most significant bit first. -/
def crcByte (c : Half) (b : Byte) : Half :=
  crcBit (crcBit (crcBit (crcBit (crcBit (crcBit (crcBit (crcBit (c ^^^ (b ++ 0#8)))))))))

/-- The check over the length byte, the code byte and the body, with initial value FFFFh. -/
def crc (bytes : List Byte) : Half := bytes.foldl crcByte 0xFFFF#16

/-- The two check bytes, high byte first. -/
def checkBytes (bytes : List Byte) : List Byte :=
  [(crc bytes).extractLsb' 8 8, (crc bytes).extractLsb' 0 8]

/-- The check of a complete frame matches (its bytes after A5h, check bytes last). -/
def checkMatches (frame : List Byte) : Bool :=
  frame.drop (frame.length - 2) == checkBytes (frame.take (frame.length - 2))

/-- The length byte says how many code and body bytes a frame has: 1 to 250 (R170). -/
def lengthTaken (length : Byte) : Bool := 1 ≤ length.toNat && length.toNat ≤ 250

/-- The frame has its length byte, as many code and body bytes as it says, and two check bytes (R170). -/
def frameComplete : List Byte → Bool
  | [] => false
  | length :: rest => rest.length == length.toNat + 2

/-- The row a complete frame stands for: dropped by its check, a command of the port, or neither (R171, R172). -/
def rowOfFrame (p : Port) (frame : List Byte) : Instr :=
  if checkMatches frame then
    let code := byteAt frame 1
    let body := (frame.take (frame.length - 2)).drop 2
    match decodeCommand p code body with
    | some i => i
    | none => .unknownCode p code body
  else .frameCheckFail p frame

/-! ### The encoder -/

/-- The two bytes of a field, low byte first (R173). -/
def halfBytes (h : Half) : List Byte := [h.extractLsb' 0 8, h.extractLsb' 8 8]

/-- The four bytes of a field, low byte first. -/
def wordBytes (w : Word) : List Byte := halfBytes (w.extractLsb' 0 16) ++ halfBytes (w.extractLsb' 16 16)

/-- The 16 bytes of an engineer code. -/
def codeBytes (c : EngineerCode) : List Byte :=
  wordBytes (c.extractLsb' 0 32) ++ wordBytes (c.extractLsb' 32 32) ++ wordBytes (c.extractLsb' 64 32)
    ++ wordBytes (c.extractLsb' 96 32)

def addressBytes (a : SlotAddress) : List Byte := [a.mode, a.byte1, a.byte2, a.byte3]

def drawnBytes (f : DrawnFields) : List Byte :=
  wordBytes f.designLeft ++ [f.type] ++ halfBytes f.planCut ++ [f.supportCount] ++ halfBytes f.support0
    ++ halfBytes f.support1 ++ halfBytes f.support2 ++ halfBytes f.left ++ halfBytes f.right ++ [f.reach]

def planBytes (f : PlanFields) : List Byte := [f.wall, f.course] ++ drawnBytes f.drawn

def loadRecordBytes (r : LoadRecord) : List Byte := halfBytes r.index ++ planBytes r.plan

def asLaidBytes (f : AsLaidFields) : List Byte :=
  wordBytes f.left ++ wordBytes f.right ++ wordBytes f.topLeft ++ wordBytes f.topRight ++ wordBytes f.timeLaid

def wallFieldBytes (f : WallFields) : List Byte :=
  wordBytes f.base ++ halfBytes f.courseHeight
    ++ [f.courseCount, f.bedMin, f.bedMax, f.jointMin, f.jointNominal, f.jointMax]
    ++ halfBytes f.driftMax ++ halfBytes f.heightTol ++ halfBytes f.positionTol

def typeFieldBytes (f : TypeFields) : List Byte :=
  [f.defined] ++ halfBytes f.length ++ halfBytes f.height ++ [f.bin, f.cuttable] ++ halfBytes f.minCut

def watchFieldBytes (f : WatchFields) : List Byte :=
  [f.number, f.enabled, f.wall, f.course, f.state, f.mode]

def sweepBytes (op : Byte) (f : SweepFields) : List Byte :=
  addressBytes f.start ++ halfBytes f.count ++ [f.direction, op] ++ halfBytes f.deltaOrType
    ++ [f.condition, f.state]

def laidBytes (f : LaidFields) : List Byte :=
  wordBytes f.left ++ wordBytes f.right ++ wordBytes f.topLeft ++ wordBytes f.topRight

/-- The port, code and body of the frame that carries a command, or none for an event of the part, of a link
or of a pin, which no frame carries. -/
def encodeCommand : Instr → Option (Port × Byte × List Byte)
  | .slotRead p a => some (p, 0x01, addressBytes a)
  | .wallRead p w => some (p, 0x02, [w])
  | .typeRead p t => some (p, 0x03, [t])
  | .queueRead p n => some (p, 0x04, [n])
  | .lineRead p => some (p, 0x05, [])
  | .readTime p => some (p, 0x06, [])
  | .conditionsRead p => some (p, 0x07, [])
  | .optionRead p => some (p, 0x08, [])
  | .status p => some (p, 0x09, [])
  | .eventFetch p => some (p, 0x0A, [])
  | .eventMask .P m => some (.P, 0x0B, halfBytes m)
  | .eventMask .M m => some (.M, 0x0B, [m.setWidth 8])
  | .authorityRead => some (.P, 0x0C, [])
  | .watchRead => some (.P, 0x0D, [])
  | .watchSet f => some (.P, 0x0E, watchFieldBytes f)
  | .audit w => some (.P, 0x0F, [w])
  | .sweepWithhold op f => some (.P, 0x10, sweepBytes op f)
  | .sweepFree f => some (.P, 0x10, sweepBytes 1 f)
  | .sweepShift f => some (.P, 0x10, sweepBytes 2 f)
  | .sweepRetype f => some (.P, 0x10, sweepBytes 3 f)
  | .abort => some (.P, 0x11, [])
  | .hold => some (.P, 0x12, [])
  | .release => some (.P, 0x13, [])
  | .unlock c => some (.P, 0x40, codeBytes c)
  | .lock => some (.P, 0x41, [])
  | .setCode pr c => some (.P, 0x42, [pr] ++ codeBytes c)
  | .freeze => some (.P, 0x43, [])
  | .wallDefine w f pr => some (.P, 0x20, [w] ++ wallFieldBytes f ++ [pr])
  | .wallSet w f => some (.P, 0x21, [w] ++ wallFieldBytes f)
  | .wallOpen w => some (.P, 0x22, [w])
  | .pause w => some (.P, 0x23, [w])
  | .resume w => some (.P, 0x24, [w])
  | .priority w v => some (.P, 0x27, [w, v])
  | .close w => some (.P, 0x25, [w])
  | .wallFree w => some (.P, 0x26, [w])
  | .typeDefine t f => some (.P, 0x28, [t] ++ typeFieldBytes f)
  | .slotLoad rs => some (.P, 0x30, rs.flatMap loadRecordBytes)
  | .slotRestore a f l => some (.P, 0x31, addressBytes a ++ planBytes f ++ asLaidBytes l)
  | .slotAmend a s f => some (.P, 0x32, addressBytes a ++ [s] ++ drawnBytes f)
  | .slotDelete a => some (.P, 0x33, addressBytes a)
  | .withhold a => some (.P, 0x34, addressBytes a)
  | .free a => some (.P, 0x35, addressBytes a)
  | .clear a => some (.P, 0x36, addressBytes a)
  | .accept a => some (.P, 0x37, addressBytes a)
  | .lift a => some (.P, 0x38, addressBytes a)
  | .setTime v => some (.P, 0x39, wordBytes v)
  | .setOption c v => some (.P, 0x3A, [c] ++ wordBytes v)
  | .setEpl l => some (.P, 0x3B, [l])
  | .station v => some (.M, 0x50, [v])
  | .claim => some (.M, 0x51, [])
  | .cutDone t => some (.M, 0x52, [t])
  | .glued t => some (.M, 0x53, [t])
  | .targetRequest t => some (.M, 0x54, [t])
  | .laid t f => some (.M, 0x55, [t] ++ laidBytes f)
  | .reject t r => some (.M, 0x56, [t, r])
  | .binStatus m => some (.M, 0x57, halfBytes m)
  | .conditions t w => some (.M, 0x58, [t, w])
  | .unknownCode p code body => some (p, code, body)
  | .sweepStep => none
  | .auditStep => none
  | .clockTick => none
  | .adhesiveExpiry _ => none
  | .staleness => none
  | .frameGapTimeout _ => none
  | .frameCheckFail _ _ => none
  | .endingResponseSend => none
  | .estopChange _ => none
  | .lineReset => none
  | .powerOnReset => none
  | .frameLengthOutOfRange _ _ => none

/-- The frame of a code and body after its A5h: length, code, body, check (section 10.5). -/
def frameOf (code : Byte) (body : List Byte) : List Byte :=
  let covered := BitVec.ofNat 8 (body.length + 1) :: code :: body
  covered ++ checkBytes covered

end Sys2Proof
end

