-- ==== Sys2Proof/Machine/Link.lean ====
section
/-! DEFINITION. The link ports (spec/10): the bytes of a response (R173, R175), the frame receivers (R170), and the
link rows FRAME_GAP_TIMEOUT, FRAME_CHECK_FAIL, FRAME_LENGTH_OUT_OF_RANGE, UNKNOWN_CODE and ENDING_RESPONSE_SEND. -/

namespace Sys2Proof.Machine

open Sys2Proof

/-! ### Codes (section 10.4, R173) -/

/-- The status codes of section 10.4. -/
def Status.code : Status → Nat
  | .ok => 0x00 | .busy => 0x01 | .malformed => 0x02 | .unknown => 0x03 | .badAddress => 0x04 | .badValue => 0x05
  | .badState => 0x06 | .inFlight => 0x07 | .notHeld => 0x08 | .authority => 0x09 | .exhausted => 0x0A
  | .frozen => 0x0B | .full => 0x0C | .inUse => 0x0D | .lineFull => 0x0E | .lineNotEmpty => 0x0F | .notFront => 0x10
  | .outOfStep => 0x11 | .late => 0x12 | .noBrick => 0x13 | .fault => 0x14 | .discard => 0x15 | .aborted => 0x16
  | .edge => 0x17 | .auditFail => 0x18 | .hasFollowers => 0x1A | .notBusy => 0x1B | .notAudited => 0x1C

/-- The NoBrick reasons, 1 to 8 (R48). -/
def NoBrickReason.code : NoBrickReason → Nat
  | .clockUnset => 1 | .noStation => 2 | .eStop => 3 | .hold => 4 | .windStop => 5 | .glueGate => 6
  | .queueEmpty => 7 | .allBlocked => 8

/-- The Fault reasons, 0 to 4 (section 10.4). -/
def FaultReason.code : FaultReason → Nat
  | .supportStep => 0 | .gapWide => 1 | .gapNarrow => 2 | .notCuttable => 3 | .drift => 4

/-- The slot states in the order of R1, from 0. -/
def SlotState.code : SlotState → Nat
  | .empty => 0 | .planned => 1 | .ready => 2 | .claimed => 3 | .set => 4 | .suspect => 5 | .fault => 6 | .retired => 7

/-- The wall states in the order of R7, from 0. -/
def WallState.code : WallState → Nat
  | .free => 0 | .draft => 1 | .opened => 2 | .paused => 3 | .closed => 4

/-- The stages in the order of R47, from 0. -/
def Stage.code : Stage → Nat
  | .picked => 0 | .cut => 1 | .glued => 2 | .targeted => 3 | .expired => 4 | .faulted => 5

def Gate.code : Gate → Nat
  | .closed => 0 | .opened => 1

def Level.code : Level → Nat
  | .operator => 0 | .engineer => 1

def WatchMode.code : WatchMode → Nat
  | .once => 0 | .every => 1

/-- The end reasons in the order of R141's table, from 0. -/
def SweepEnd.code : SweepEnd → Nat
  | .done => 0 | .condEnd => 1 | .aborted => 2 | .edge => 3 | .inFlight => 4 | .badState => 5 | .notHeld => 6
  | .badValue => 7

/-- The failure codes in the order of R144's table, from 0. -/
def AuditFailure.code : AuditFailure → Nat
  | .typeUndefined => 0 | .courseRange => 1 | .courseZeroSupport => 2 | .supportMissing => 3 | .supportOtherWall => 4
  | .supportCourse => 5 | .supportNoOverlap => 6 | .courseOverlap => 7 | .neighbourLink => 8 | .reachEmpty => 9

/-! ### Field kinds (R173) -/

def u8 (n : Nat) : List Byte := [BitVec.ofNat 8 n]
def u16 (n : Nat) : List Byte := halfBytes (BitVec.ofNat 16 n)
def u32 (n : Nat) : List Byte := wordBytes (BitVec.ofNat 32 n)
def i8 (n : Int) : List Byte := [BitVec.ofInt 8 n]
def i32 (n : Int) : List Byte := wordBytes (BitVec.ofInt 32 n)
def flagByte (b : Bool) : List Byte := u8 b.toNat

/-- An optional slot index: FFFFh means absent. -/
def optIndex (i : Option Nat) : List Byte := u16 (i.getD 0xFFFF)

/-- An optional cut length: 0 means absent. -/
def optCut (c : Option Nat) : List Byte := u16 (c.getD 0)

/-- Any other optional field: a presence byte, then the field, which is zero when absent. -/
def optField (present : Bool) (bytes : List Byte) : List Byte :=
  flagByte present ++ if present then bytes else bytes.map fun _ => 0

/-- A site time, optional, or a clock that may be Unset. -/
def optTime (t : Option Nat) : List Byte := optField t.isSome (u32 (t.getD 0))

/-- A list of varying length: a count byte, then the items. -/
def counted {α : Type} (l : List α) (item : α → List Byte) : List Byte := u8 l.length ++ l.flatMap item

/-! ### Records -/

def targetBytes (t : Target) : List Byte := u32 t.top ++ u32 t.left ++ u16 t.length

def asLaidPartBytes (a : AsLaid) : List Byte :=
  u32 a.left ++ u32 a.right ++ u32 a.topLeft ++ u32 a.topRight ++ u32 a.timeLaid

/-- The record of a non-Empty slot after its index: state, plan fields (R2), flags (R4), optional parts in the order
of the table under R6 (assumption 15). -/
def slotBytes (x : Slot) : List Byte :=
  u8 x.state.code ++ u8 x.wall ++ u8 x.course ++ u32 x.designLeft ++ u8 x.type ++ optCut x.planCut
    ++ counted x.supports u16 ++ optIndex x.left ++ optIndex x.right ++ [x.reach]
    ++ flagByte x.withheld ++ flagByte x.openLeft ++ flagByte x.corrected ++ flagByte x.late
    ++ optField x.tag.isSome (u8 (x.tag.getD 0))
    ++ optField x.target.isSome (targetBytes (x.target.getD ⟨0, 0, 0⟩))
    ++ optField x.asLaid.isSome (asLaidPartBytes (x.asLaid.getD ⟨0, 0, 0, 0, 0⟩))
    ++ optField x.faultReason.isSome (u8 ((x.faultReason.map FaultReason.code).getD 0))

def wallBytes (w : Wall) : List Byte :=
  u8 w.state.code ++ u32 w.params.base ++ u16 w.params.courseHeight ++ u8 w.params.courseCount
    ++ u8 w.params.bedMin ++ u8 w.params.bedMax ++ u8 w.params.jointMin ++ u8 w.params.jointNominal
    ++ u8 w.params.jointMax ++ u16 w.params.driftMax ++ u16 w.params.heightTol ++ u16 w.params.positionTol
    ++ u8 w.priority ++ flagByte w.audited ++ flagByte w.complete ++ u16 w.slotCount ++ u16 w.laidCount

def typeBytes (t : BrickType) : List Byte :=
  flagByte t.defined ++ u16 t.length ++ u16 t.height ++ u8 t.bin ++ flagByte t.cuttable ++ u16 t.minCut

/-- A queue entry, 9 bytes (R42). -/
def queueEntryBytes (e : QueueEntry) : List Byte :=
  u16 e.slot ++ u8 e.wall ++ u8 e.course ++ u32 e.designLeft ++ u8 e.type

def carrierBytes (c : Carrier) : List Byte :=
  u8 c.tag ++ u16 c.slot ++ u8 c.stage.code ++ optCut c.cutLength ++ flagByte c.closer ++ u32 c.top
    ++ optField c.left.isSome (u32 (c.left.getD 0)) ++ optTime c.deadline ++ flagByte c.targeted

def conditionsBytes (c : Conditions) : List Byte :=
  i8 c.temperature ++ u8 c.wind ++ optTime c.lastReport ++ flagByte c.stale ++ flagByte c.range
    ++ u8 c.glue.code ++ u8 c.exposure.code ++ u8 c.stop.code

/-- The answer to a Conditions report, in the order R112 lists its fields. -/
def weatherBytes (c : Conditions) : List Byte :=
  i8 c.temperature ++ u8 c.wind ++ flagByte c.range ++ flagByte c.stale
    ++ u8 c.glue.code ++ u8 c.exposure.code ++ u8 c.stop.code

def unsignedByte (n : Int) : List Byte := u8 n.toNat

def optionsBytes (o : Options) : List Byte :=
  u16 o.otRef.toNat ++ unsignedByte o.slope ++ i8 o.tGlueMin ++ i8 o.tGlueMax ++ unsignedByte o.exposureClose
    ++ unsignedByte o.exposureOpen ++ unsignedByte o.stopClose ++ unsignedByte o.stopOpen
    ++ u32 o.exposureHeight.toNat ++ unsignedByte o.autoClear

/-- Any is carried as FFh, as in Watch Set. -/
def anyByte (n : Option Nat) : List Byte := u8 (n.getD 0xFF)

def watchBytes (w : Watch) : List Byte :=
  flagByte w.enabled ++ anyByte w.wall ++ anyByte w.course ++ u8 w.entered.code ++ u8 w.mode.code
    ++ flagByte w.latched ++ u8 w.count ++ optIndex w.lastSlot ++ optTime w.lastTime

/-- Bytes 2 to 18 of a Status response (R175). -/
def statusBytes (b : StatusBody) : List Byte :=
  u8 b.level.code ++ optTime b.clock ++ u8 (b.station.getD 0xFF) ++ u8 b.glue.code ++ u8 b.exposure.code
    ++ u8 b.stop.code ++ flagByte b.stale ++ flagByte b.hold ++ flagByte b.held ++ u8 b.carriers
    ++ u8 b.queueLength ++ flagByte b.estop ++ flagByte b.busy

/-- The carrier's stage after a report, or the note that it has left the line: an optional field (R52, R173). -/
def stageAfter (st : Option Stage) : List Byte := optField st.isSome (u8 ((st.map Stage.code).getD 0))

def deviationBytes (d : Deviations) : List Byte := i32 d.topLeft ++ i32 d.topRight ++ i32 d.left ++ i32 d.right

/-- The bytes of a response after its status, the fields in the order their rules list them (R173;
assumption 15). -/
def Body.bytes : Body → List Byte
  | .empty => []
  | .noBrick r => u8 r.code
  | .faulted r => u8 r.code
  | .slot i none => u16 i ++ u8 SlotState.empty.code
  | .slot i (some x) => u16 i ++ slotBytes x
  | .wall w => wallBytes w
  | .brickType t => typeBytes t
  | .queue n ready es => u8 n ++ u16 ready ++ counted es queueEntryBytes
  | .line cs => counted cs carrierBytes
  | .time t => optTime t
  | .conditions c => conditionsBytes c
  | .options o => optionsBytes o
  | .status b => statusBytes b
  | .event v ls ms => u8 v ++ ls.flatMap flagByte ++ ms.flatMap flagByte
  | .masks ms ls => ms.flatMap flagByte ++ ls.flatMap flagByte
  | .authority l n f e c => u8 l.code ++ u8 n ++ flagByte f ++ u8 e.code ++ flagByte c
  | .watches ws => ws.toList.flatMap watchBytes
  | .watch w => watchBytes w
  | .sweepEnd r last n => u8 r.code ++ optIndex last ++ u16 n
  | .auditPass n => u16 n
  | .auditFail r i n => u8 r.code ++ u16 i ++ u16 n
  | .auditAborted last n => optIndex last ++ u16 n
  | .hold n h => u8 n ++ flagByte h
  | .unlock l n => u8 l.code ++ u8 n
  | .level l => u8 l.code
  | .count n => u16 n
  | .load n codes => u8 n ++ counted codes fun c => u8 c.code
  | .slotState st => u8 st.code
  | .withheld st f => u8 st.code ++ flagByte f
  | .accepted st f => u8 st.code ++ flagByte f
  | .clockSet v => u32 v
  | .option c v => u8 c ++ i32 v
  | .claim b => u8 b.tag ++ u16 b.slot ++ u8 b.wall ++ u8 b.course ++ u8 b.type ++ u8 b.bin ++ optCut b.cutLength
      ++ flagByte b.closer
  | .cutDone tag st => u8 tag ++ stageAfter (some st)
  | .glued tag st ot d => u8 tag ++ stageAfter (some st) ++ u16 ot ++ u32 d
  | .target tag st t c => u8 tag ++ stageAfter (some st) ++ targetBytes t ++ flagByte c
  | .laid tag st d => u8 tag ++ stageAfter none ++ u8 st.code ++ deviationBytes d
  | .rejected tag r st => u8 tag ++ stageAfter none ++ u8 r ++ u8 st.code
  | .weather c => weatherBytes c

/-- The frame of a response as it is sent, A5h first (R173, section 10.5). -/
def Response.frame (r : Response) : List Byte :=
  0xA5#8 :: frameOf r.code (BitVec.ofNat 8 r.status.code :: r.body.bytes)

/-! ### The receivers (R170) -/

/-- A receiver takes one byte: the receiver after it, and the row the byte completes, if any. -/
def receiveByte (p : Port) (r : Receiver) (b : Byte) : Receiver × List Instr :=
  match r with
  | .hunting => (if b = 0xA5#8 then .collecting [] else .hunting, [])
  | .collecting [] =>
    if lengthTaken b then (.collecting [b], []) else (.hunting, [.frameLengthOutOfRange p b])
  | .collecting bs =>
    if frameComplete (bs ++ [b]) then (.hunting, [rowOfFrame p (bs ++ [b])]) else (.collecting (bs ++ [b]), [])

/-- A receiver meets a gap of more than 100 µs: inside a frame it is FRAME_GAP_TIMEOUT's to discard. -/
def receiveGap (p : Port) : Receiver → List Instr
  | .hunting => []
  | .collecting _ => [.frameGapTimeout p]

/-- What a port's receiver makes of one input. -/
def receive (p : Port) (r : Receiver) : LinkInput → Receiver × List Instr
  | .byte b => receiveByte p r b
  | .gap => (r, receiveGap p r)

/-- With no command waiting, the oldest input is received, and the row it completes waits to be taken
(assumption 3); with no input either, the part idles. -/
def State.receiveInput (s : State) : State :=
  match s.inputs with
  | [] => s
  | (p, x) :: rest =>
    let r := receive p (s.port p).receiver x
    { s with inputs := rest, pending := s.pending ++ r.2 }.setReceiver p r.1

/-! ### The link rows -/

/-- FRAME_GAP_TIMEOUT (R170): the frame is discarded, nothing is answered; a hunting receiver has none. -/
def execFrameGapTimeout (p : Port) (s : State) : Result :=
  .next (match (s.port p).receiver with
    | .hunting => s
    | .collecting _ => s.discardFrame p)

/-- FRAME_LENGTH_OUT_OF_RANGE (R170): the frame ends at once, nothing is answered. -/
def execFrameLengthOutOfRange (p : Port) (length : Byte) (s : State) : Result :=
  if lengthTaken length then .refused .outsideRow else .next (s.discardFrame p)

/-- FRAME_CHECK_FAIL (R171): the frame is dropped, nothing is answered and no cursor moves. -/
def execFrameCheckFail (p : Port) (frame : List Byte) (s : State) : Result :=
  if frameComplete frame && lengthTaken (byteAt frame 0) && !checkMatches frame then .next (s.discardFrame p)
  else .refused .outsideRow

/-- UNKNOWN_CODE (R172 tests 1 and 2): a code that names no command of the port is answered Unknown, and one whose
body has a size its entry does not admit Malformed (assumption 10), Busy or not. Either answer is the status byte alone,
that of a Malformed frame with the code of Unlock too (assumption 26, DEDUCED). -/
def execUnknownCode (p : Port) (code : Byte) (body : List Byte) (s : State) : Result :=
  if 250 ≤ body.length then .refused .outsideRow
  else
    match bodySizes p code with
    | none => .next (s.refuse p code .unknown)
    | some sizes => if sizes.contains body.length then .refused .outsideRow else .next (s.refuse p code .malformed)

/-- ENDING_RESPONSE_SEND (R174): the ending response that waits is sent once port P's receiver is hunting; else the
event does not occur (assumption 2). One that is held behind the answer to a frame is not yet free to go. -/
def execEndingResponseSend (s : State) : Result :=
  .next (match s.portP.waiting, s.portP.receiver with
    | some r, .hunting => { s with portP := { s.portP with sent := s.portP.sent ++ [r], waiting := none } }
    | _, _ => s)

end Sys2Proof.Machine
end

