-- ==== Sys2Proof/Machine/Readiness.lean ====
section
/-! DEFINITION. The Readiness Evaluator and the ready queue (spec/02): the conditions of R26, judgement (R27), the
dispatch key (R37) and the queue law (R38), which the joining and leaving rules R39 to R41 restore at every event
that changes a slot's readiness or a Ready slot's key (assumption 17). -/

namespace Sys2Proof.Machine

open Sys2Proof

/-! ### The readiness conditions (R26) -/

/-- Condition 4: a station is set and lies in the slot's reach. -/
def inReach (station : Option Nat) (x : Slot) : Bool := station.any fun n => x.reach.getLsbD n

/-- Condition 5: every support is Set. -/
def Plan.supportsSet (p : Plan) (x : Slot) : Bool := x.supports.all fun j => p.stateOf j == .set

/-- Condition 6: the right neighbour, if present, is not Claimed. -/
def Plan.rightNotClaimed (p : Plan) (x : Slot) : Bool := x.right.all fun j => p.stateOf j != .claimed

/-- The right neighbour is present and laid. -/
def Plan.rightLaid (p : Plan) (x : Slot) : Bool := x.right.any fun j => p.isLaid j

/-- The left neighbour is absent or laid. -/
def Plan.leftClosed (p : Plan) (x : Slot) : Bool := x.left.all fun j => p.isLaid j

/-- The seven conditions of R26 on a record, against the plan and the station as they stand. -/
def Plan.readyConditions (p : Plan) (station : Option Nat) (x : Slot) : Bool :=
  (x.state == .planned || x.state == .ready)
    && !x.withheld
    && (p.wall x.wall).state == .opened
    && inReach station x
    && p.supportsSet x
    && p.rightNotClaimed x
    && (!p.rightLaid x || p.leftClosed x)

/-! ### The dispatch key (R37) -/

/-- The five parts of a key. -/
structure Key where
  priority : Nat
  wall : Nat
  course : Nat
  designLeft : Nat
  index : Nat
  deriving DecidableEq, Repr

/-- One key is smaller than another: the first part that differs decides, and a higher priority is smaller. -/
def Key.before (a b : Key) : Bool :=
  if a.priority ≠ b.priority then decide (b.priority < a.priority)
  else if a.wall ≠ b.wall then decide (a.wall < b.wall)
  else if a.course ≠ b.course then decide (a.course < b.course)
  else if a.designLeft ≠ b.designLeft then decide (a.designLeft < b.designLeft)
  else decide (a.index < b.index)

/-- The key of a slot, from the values the records hold (R37). -/
def Plan.key (p : Plan) (e : Nat × Slot) : Key :=
  ⟨(p.wall e.2.wall).priority, e.2.wall, e.2.course, e.2.designLeft, e.1⟩

/-! ### The ready queue -/

/-- The Ready slots with their records. -/
def Plan.readySlots (p : Plan) : SlotTable := p.slots.filter fun e => e.2.state = .ready

/-- The Ready slots in ascending key order. -/
def Plan.readyOrder (p : Plan) : List Nat :=
  (p.readySlots.insertionSort fun a b => (p.key b).before (p.key a) = false).map Prod.fst

/-- The queue the law of R38 requires: the Ready slots with the smallest keys, at most 64, in ascending order. -/
def Plan.queueByLaw (p : Plan) : List Nat := p.readyOrder.take Config.queueCapacity

/-- The queue is brought to its law (R38 to R41). -/
def State.reselect (s : State) : State :=
  { s with dispatcher := { s.dispatcher with queue := s.plan.queueByLaw } }

/-! ### Judgement -/

/-- One slot is judged: Planned becomes Ready where every condition holds, Ready becomes Planned where one fails,
and any other state stays (R27). Entry into Ready is presented to the watches; entry into Planned matches none. -/
def State.judge (s : State) (i : Nat) : State :=
  match s.plan.slot? i with
  | none => s
  | some x =>
    match x.state with
    | .planned => if s.plan.readyConditions s.dispatcher.station x then s.enter i .ready id else s
    | .ready =>
      if s.plan.readyConditions s.dispatcher.station x then s
      else s.modifySlot i fun y => { y with state := .planned }
    | _ => s

/-- A cause re-judges slots, in ascending index order (R27, R160), and the queue is brought to its law. -/
def State.rejudge (ids : List Nat) (s : State) : State :=
  ((s.plan.indices.filter fun i => ids.contains i).foldl State.judge s).reselect

/-- Every non-Empty slot of a wall is re-judged (R36). -/
def State.rejudgeWall (w : Nat) (s : State) : State := s.rejudge ((s.plan.slotsOf w).map Prod.fst)

/-- Every non-Empty slot of the table is re-judged (R43, R44). -/
def State.rejudgeAll (s : State) : State := s.rejudge s.plan.indices

/-- A slot has become Set: its followers and both neighbours are re-judged (R31). -/
def State.rejudgeAroundSet (i : Nat) (x : Slot) (s : State) : State :=
  s.rejudge (s.plan.followers i ++ x.neighbours)

/-- A slot has become Suspect: both neighbours are re-judged (R32). -/
def State.rejudgeAroundSuspect (x : Slot) (s : State) : State := s.rejudge x.neighbours

/-- Every non-Empty slot of a wall is Set (R24, R95). -/
def Plan.allSet (p : Plan) (w : Nat) : Bool := (p.slotsOf w).all fun e => e.2.state == .set

/-- The completion test: when every non-Empty slot of the wall is Set, its complete flag is set and WallComplete
latches (R95, R96). -/
def State.completionTest (w : Nat) (s : State) : State :=
  if s.plan.allSet w then (s.modifyWall w fun x => { x with complete := true }).latchWallComplete else s

end Sys2Proof.Machine
end

