-- ==== Sys2Proof/Machine/Placement.lean ====
section
/-! DEFINITION. The Placement Calculator (spec/04) and the As-Laid Checker (section 5.1). Both hold no state: pure
functions of the tables as they stand at the event that calls them (R71, R89). -/

namespace Sys2Proof.Machine

open Sys2Proof

/-- A figure clamped into a band (R74, R77). -/
def clampBand (lo hi x : Nat) : Nat := if x < lo then lo else if hi < x then hi else x

/-! ### The top, at claim -/

/-- The heights over which the slot's bed is laid: the wall base twice for an empty supports list, else both tops
of each support (R73). -/
def Plan.supportEnds (p : Plan) (x : Slot) : List Nat :=
  if x.supports.isEmpty then [(p.wall x.wall).params.base, (p.wall x.wall).params.base]
  else x.supports.flatMap fun j =>
    match (p.slot? j).bind Slot.asLaid with
    | none => []
    | some a => [a.topLeft, a.topRight]

/-- The largest support end. -/
def maxEnd (ends : List Nat) : Nat := ends.foldl max 0

/-- The smallest support end. -/
def minEnd (ends : List Nat) : Nat := ends.foldl min (ends.headD 0)

/-- The height band: lo = maxTop + H + bed min and hi = minTop + H + bed max (R74 step 2). -/
def Plan.topBand (p : Plan) (x : Slot) : Nat × Nat :=
  let ends := p.supportEnds x
  let h := (p.brickType x.type).height
  let w := (p.wall x.wall).params
  (maxEnd ends + h + w.bedMin, minEnd ends + h + w.bedMax)

/-- The claim-time height computation (R74). -/
def Plan.claimTop (p : Plan) (x : Slot) : Except FaultReason Nat :=
  let band := p.topBand x
  if band.2 < band.1 then .error .supportStep else .ok (clampBand band.1 band.2 (p.designTop x))

/-! ### The left end -/

/-- The as-laid part of a neighbour, when that slot is laid (R72). -/
def Plan.laidPart (p : Plan) (link : Option Nat) : Option AsLaid :=
  match link with
  | none => none
  | some j => if p.isLaid j then (p.slot? j).bind Slot.asLaid else none

/-- The drift: the difference of a left end and the design left, without sign (R78). -/
def drift (l designLeft : Nat) : Nat := ((l : Int) - designLeft).natAbs

/-- The left end against a laid left neighbour: the design left clamped into the head joint band (R77) and checked
against drift max (R78); otherwise the design left, unchecked (R76, R80). R80 gives no case for a closer whose left
neighbour is present and not laid: it takes the design left as R76 has it for any other brick (assumption 25,
DEDUCED). -/
def Plan.leftEnd (p : Plan) (x : Slot) : Except FaultReason Nat :=
  match p.laidPart x.left with
  | none => .ok x.designLeft
  | some m =>
    let w := (p.wall x.wall).params
    let l := clampBand (m.right + w.jointMin) (m.right + w.jointMax) x.designLeft
    if w.driftMax < drift l x.designLeft then .error .drift else .ok l

/-- The left neighbour is present and not laid (R76, R85). -/
def Plan.leftOpen (p : Plan) (x : Slot) : Bool := x.left.any fun j => !p.isLaid j

/-! ### Closers -/

/-- The closer length: the raw gap rounded down to a multiple of 5 (R81), with the checks of R82 in their order. -/
def Plan.closerLength (p : Plan) (x : Slot) (l r : Nat) : Except FaultReason Nat :=
  let t := p.brickType x.type
  let raw : Int := (r : Int) - ((p.wall x.wall).params.jointNominal : Int) - (l : Int)
  if raw < 0 then .error .gapNarrow
  else
    let n := raw.toNat - raw.toNat % 5
    if t.length < n then .error .gapWide
    else if n < t.minCut then .error .gapNarrow
    else if n < t.length ∧ t.cuttable = false then .error .notCuttable
    else .ok n

/-- What the claim-time computation hands back: the top, and for a closer its left end and length (R75). -/
structure ClaimResult where
  top : Nat
  closer : Option (Nat × Nat)
  deriving DecidableEq, Repr

/-- The claim-time computation, its parts in order, the first fault reported (R75). -/
def Plan.claimTime (p : Plan) (x : Slot) : Except FaultReason ClaimResult :=
  match p.claimTop x with
  | .error r => .error r
  | .ok top =>
    match p.laidPart x.right with
    | none => .ok ⟨top, none⟩
    | some n =>
      match p.leftEnd x with
      | .error r => .error r
      | .ok l =>
        match p.closerLength x l n.left with
        | .error r => .error r
        | .ok len => .ok ⟨top, some (l, len)⟩

/-! ### The head -/

/-- The left end at the Target Request: a closer's stands as fixed at claim (R79); any other is computed (R76). -/
def Plan.headLeft (p : Plan) (c : Carrier) (x : Slot) : Except FaultReason Nat :=
  match c.closer, c.left with
  | true, some l => .ok l
  | _, _ => p.leftEnd x

/-- The lay target of a carrier: T and the length without new arithmetic (R79). -/
def Plan.headTarget (p : Plan) (c : Carrier) (x : Slot) (l : Nat) : Target :=
  ⟨c.top, l, c.cutLength.getD (p.fullLength x)⟩

/-- The target differs from the drawing in its top or its left end (R84). -/
def Plan.isCorrected (p : Plan) (x : Slot) (t : Target) : Bool := t.top != p.designTop x || t.left != x.designLeft

/-! ### The as-laid judgement -/

/-- The four signed deviations (R90). -/
def deviations (t : Target) (a : AsLaid) : Deviations where
  topLeft := (a.topLeft : Int) - t.top
  topRight := (a.topRight : Int) - t.top
  left := (a.left : Int) - t.left
  right := (a.right : Int) - (t.left + t.length : Nat)

/-- All four deviations lie within their tolerances (R91). -/
def Deviations.within (d : Deviations) (w : WallParams) : Bool :=
  d.topLeft.natAbs ≤ w.heightTol && d.topRight.natAbs ≤ w.heightTol
    && d.left.natAbs ≤ w.positionTol && d.right.natAbs ≤ w.positionTol

/-- The verdict: Set or Suspect (R91). -/
def verdict (d : Deviations) (w : WallParams) : SlotState := if d.within w then .set else .suspect

end Sys2Proof.Machine
end

