-- ==== Sys2Proof/Machine/Reads.lean ====
section
/-! DEFINITION. The read commands, which change no record: SLOT_READ (its one effect is the cursor), WALL_READ,
TYPE_READ, QUEUE_READ, LINE_READ, READ_TIME, CONDITIONS_READ, OPTION_READ, STATUS, AUTHORITY_READ. -/

namespace Sys2Proof.Machine

open Sys2Proof

/-- SLOT_READ (R16). -/
def execSlotRead (p : Port) (a : SlotAddress) (s : State) : Result :=
  .next (s.onPort p 0x01 .read fun s =>
    s.withAddress p 0x01 a fun i s => s.reply p 0x01 .ok (.slot i (s.plan.slot? i)))

/-- WALL_READ (R17). -/
def execWallRead (p : Port) (wall : Byte) (s : State) : Result :=
  .next (s.onPort p 0x02 .read fun s =>
    if wall.toNat < Config.wallCount then s.reply p 0x02 .ok (.wall (s.plan.wall wall.toNat))
    else s.refuse p 0x02 .badAddress)

/-- TYPE_READ (R17). -/
def execTypeRead (p : Port) (type : Byte) (s : State) : Result :=
  .next (s.onPort p 0x03 .read fun s =>
    if type.toNat < Config.typeCount then s.reply p 0x03 .ok (.brickType (s.plan.brickType type.toNat))
    else s.refuse p 0x03 .badAddress)

/-- The entry a Queue Read shows for a queued slot (R42). -/
def Plan.queueEntry (p : Plan) (i : Nat) : Option QueueEntry :=
  (p.slot? i).map fun x => ⟨i, x.wall, x.course, x.designLeft, x.type⟩

/-- The entries a Queue Read returns: the smaller of the count asked, the queue's length and 27 (R42). -/
def State.queueEntries (s : State) (n : Nat) : List QueueEntry :=
  (s.dispatcher.queue.take (min n Config.queueReadRoom)).filterMap s.plan.queueEntry

/-- QUEUE_READ (R42): a count of 0 means 64. -/
def execQueueRead (p : Port) (count : Byte) (s : State) : Result :=
  .next (s.onPort p 0x04 .read fun s =>
    if count.toNat ≤ Config.queueCapacity then
      let n := if count.toNat = 0 then Config.queueCapacity else count.toNat
      s.reply p 0x04 .ok (.queue s.dispatcher.queue.length s.plan.readySlots.length (s.queueEntries n))
    else s.refuse p 0x04 .badValue)

/-- LINE_READ (R68). -/
def execLineRead (p : Port) (s : State) : Result :=
  .next (s.onPort p 0x05 .read fun s => s.reply p 0x05 .ok (.line s.line))

/-- READ_TIME (R108). -/
def execReadTime (p : Port) (s : State) : Result :=
  .next (s.onPort p 0x06 .read fun s => s.reply p 0x06 .ok (.time s.clock))

/-- CONDITIONS_READ (R116). -/
def execConditionsRead (p : Port) (s : State) : Result :=
  .next (s.onPort p 0x07 .read fun s => s.reply p 0x07 .ok (.conditions s.conditions))

/-- OPTION_READ (R125). -/
def execOptionRead (p : Port) (s : State) : Result :=
  .next (s.onPort p 0x08 .read fun s => s.reply p 0x08 .ok (.options s.options))

/-- The level byte of Status: port M is shown 0 (R175). -/
def State.statusLevel (s : State) : Port → Level
  | .P => s.authority.level
  | .M => .operator

/-- The body of a Status response (R175). -/
def State.statusBody (s : State) (p : Port) : StatusBody where
  level := s.statusLevel p
  clock := s.clock
  station := s.dispatcher.station
  glue := s.conditions.glue
  exposure := s.conditions.exposure
  stop := s.conditions.stop
  stale := s.conditions.stale
  hold := s.dispatcher.hold
  held := s.held
  carriers := s.line.length
  queueLength := s.dispatcher.queue.length
  estop := s.estop
  busy := s.busy

/-- STATUS (R175). -/
def execStatus (p : Port) (s : State) : Result :=
  .next (s.onPort p 0x09 .read fun s => s.reply p 0x09 .ok (.status (s.statusBody p)))

/-- AUTHORITY_READ (R156): whether a code is stored, and not the code (R148). -/
def execAuthorityRead (s : State) : Result :=
  .next (s.onPlanPort 0x0C .read fun s =>
    let a := s.authority
    s.reply .P 0x0C .ok (.authority a.level a.attempts a.frozen a.epl a.code.isSome))

end Sys2Proof.Machine
end

