-- ==== Sys2Proof/Machine/Line.lean ====
section
/-! DEFINITION. Claims and the boom line (spec/03), with the as-laid consequences of section 5.2: CLAIM, CUT_DONE,
GLUED, TARGET_REQUEST, LAID, REJECT, ADHESIVE_EXPIRY, BIN_STATUS, HOLD, RELEASE, STATION. -/

namespace Sys2Proof.Machine

open Sys2Proof

/-! ### CLAIM -/

/-- The first condition of R48 that holds, with its answer; none when the Claim goes on to scan the queue. -/
def State.claimRefusal (s : State) : Option (Status × Body) :=
  if s.clock = none then some (.noBrick, .noBrick .clockUnset)
  else if s.dispatcher.station = none then some (.noBrick, .noBrick .noStation)
  else if s.estop then some (.noBrick, .noBrick .eStop)
  else if s.dispatcher.hold then some (.noBrick, .noBrick .hold)
  else if s.conditions.stop = .closed then some (.noBrick, .noBrick .windStop)
  else if s.conditions.glue = .closed then some (.noBrick, .noBrick .glueGate)
  else if Config.lineCapacity ≤ s.line.length then some (.lineFull, .empty)
  else if s.dispatcher.queue.isEmpty then some (.noBrick, .noBrick .queueEmpty)
  else none

/-- An entry is eligible: its type's bin is not flagged empty, and under a Closed exposure gate its design top does
not exceed its wall's base by more than the exposure height (R49). -/
def State.eligible (s : State) (x : Slot) : Bool :=
  !(s.dispatcher.binEmpty.getLsbD (s.plan.brickType x.type).bin)
    && !(s.conditions.exposure == .closed
      && decide (s.options.exposureHeight < ((s.plan.designTop x : Int) - (s.plan.wall x.wall).params.base)))

/-- A claim-time fault: the slot goes from Ready to Fault with its reason and leaves the queue, which refills;
PlanFault latches (R50). -/
def State.faultAtClaim (i : Nat) (r : FaultReason) (s : State) : State :=
  (s.enter i .fault fun x => { x with faultReason := some r }).latchPlanFault.reselect

/-- The carrier of a successful Claim (R51). -/
def claimCarrier (tag i : Nat) (x : Slot) (r : ClaimResult) : Carrier where
  tag := tag
  slot := i
  stage := .picked
  cutLength :=
    match r.closer with
    | some (_, len) => some len
    | none => x.planCut
  closer := r.closer.isSome
  top := r.top
  left := r.closer.map Prod.fst
  deadline := none
  targeted := false

/-- What the Claim answers (R51). -/
def claimBody (p : Plan) (x : Slot) (c : Carrier) : ClaimBody :=
  ⟨c.tag, c.slot, x.wall, x.course, x.type, (p.brickType x.type).bin, c.cutLength, c.closer⟩

/-- The brick of this Claim: the carrier joins at the tail, the slot becomes Claimed and leaves the queue, its left
neighbour is re-judged, and the Claim is answered (R51, R29). -/
def State.takeBrick (i : Nat) (x : Slot) (r : ClaimResult) (s : State) : State :=
  let c := claimCarrier s.freeTag i x r
  let s1 := { s with line := s.line ++ [c] }
  let s2 := s1.enter i .claimed fun y => { y with tag := some c.tag }
  (s2.rejudge x.left.toList).reply .M 0x51 .ok (.claim (claimBody s.plan x c))

/-- The scan reached the end of the queue without taking a slot (R50). -/
def State.claimEnds (s : State) : State :=
  s.reply .M 0x51 .noBrick (.noBrick (if s.dispatcher.queue.isEmpty then .queueEmpty else .allBlocked))

/-- The scan of the queue from a position: an ineligible entry is passed over, a faulted one leaves and the entry
that now stands there is next, the first that computes is taken (R49 to R51). Each round passes over one Ready slot
or faults one, so the fuel the Claim gives does not run out. -/
def State.claimScan : Nat → Nat → State → State
  | 0, _, s => s.claimEnds
  | fuel + 1, pos, s =>
    match s.dispatcher.queue[pos]? with
    | none => s.claimEnds
    | some i =>
      match s.plan.slot? i with
      | none => s.claimScan fuel (pos + 1)
      | some x =>
        if s.eligible x then
          match s.plan.claimTime x with
          | .error r => (s.faultAtClaim i r).claimScan fuel pos
          | .ok r => s.takeBrick i x r
        else s.claimScan fuel (pos + 1)

/-- Rounds enough for any scan: every listed slot faulted or passed over, and one more. -/
def State.claimFuel (s : State) : Nat := s.plan.slots.length + s.dispatcher.queue.length + 1

/-- CLAIM (R48 to R51). -/
def execClaim (s : State) : Result :=
  .next (match s.claimRefusal with
    | some (st, b) => s.reply .M 0x51 st b
    | none => s.claimScan s.claimFuel 0)

/-! ### Stage reports -/

/-- Test 1 of R52: a tag that no carrier holds is refused with BadAddress; else the report goes on with the
carrier. -/
def State.withCarrier (code : Byte) (tag : Byte) (take : Carrier → State → Result) (s : State) : Result :=
  match s.carrier? tag.toNat with
  | none => .next (s.refuse .M code .badAddress)
  | some c => take c s

/-- CUT_DONE (R53): a Picked carrier with a cut length moves to Cut. -/
def execCutDone (tag : Byte) (s : State) : Result :=
  s.withCarrier 0x52 tag fun c s =>
    if c.stage = .picked ∧ c.cutLength.isSome then
      .next ((s.modifyCarrier c.tag fun d => { d with stage := .cut }).reply .M 0x52 .ok (.cutDone c.tag .cut))
    else .next (s.refuse .M 0x52 .outOfStep)

/-- The open time of R109: the product divided by 1024 toward zero, subtracted and clamped last. -/
def openTime (c : Conditions) (o : Options) : Nat :=
  let q := (o.otRef * o.slope * (c.temperature - 20)).tdiv 1024
  (max (Config.openTimeMin : Int) (min (Config.openTimeMax : Int) (o.otRef - q))).toNat

/-- The open time at a Glued report: 60 for a stale record, else computed (R110). -/
def State.openTimeNow (s : State) : Nat :=
  if s.conditions.stale then Config.openTimeMin else openTime s.conditions s.options

/-- A Glued report is taken from Cut, and from Picked with no cut length (R54). -/
def Carrier.mayGlue (c : Carrier) : Bool := c.stage == .cut || (c.stage == .picked && c.cutLength.isNone)

/-- GLUED (R54, R110). -/
def execGlued (tag : Byte) (s : State) : Result :=
  s.withCarrier 0x53 tag fun c s =>
    if c.mayGlue then
      match s.clock with
      | none => .fault .carrierWithoutClock
      | some now =>
        let deadline := min (now + s.openTimeNow) Config.maxTime
        .next ((s.modifyCarrier c.tag fun d => { d with stage := .glued, deadline := some deadline }).reply .M 0x53
          .ok (.glued c.tag .glued s.openTimeNow deadline))
    else .next (s.refuse .M 0x53 .outOfStep)

/-- Test 3 of R52: Target Request and Laid are taken from the front carrier alone. -/
def State.whenFront (code : Byte) (c : Carrier) (take : State → Result) (s : State) : Result :=
  if s.isFront c.tag then take s else .next (s.refuse .M code .notFront)

/-- A successful head-time computation: the carrier becomes Targeted and the slot receives its target part and
flags (R56, R84, R85). -/
def State.issueTarget (c : Carrier) (x : Slot) (l : Nat) (s : State) : State :=
  let t := s.plan.headTarget c x l
  let corrected := s.plan.isCorrected x t
  let openLeft := s.plan.leftOpen x
  ((s.modifyCarrier c.tag fun d => { d with stage := .targeted, left := some l, targeted := true }).modifySlot c.slot
    fun y => { y with target := some t, corrected := corrected, openLeft := openLeft }).reply .M 0x54 .ok
      (.target c.tag .targeted t corrected)

/-- TARGET_REQUEST (R55 to R57). -/
def execTargetRequest (tag : Byte) (s : State) : Result :=
  s.withCarrier 0x54 tag fun c s => s.whenFront 0x54 c fun s =>
    match c.stage with
    | .picked | .cut => .next (s.refuse .M 0x54 .outOfStep)
    | .expired => .next (s.refuse .M 0x54 .discard)
    | .faulted => .next (s.reply .M 0x54 .fault (.faulted .drift))
    | .glued =>
      match s.plan.slot? c.slot with
      | none => .fault .carrierWithoutSlot
      | some x =>
        match s.plan.headLeft c x with
        | .error r =>
          .next ((s.modifyCarrier c.tag fun d => { d with stage := .faulted }).reply .M 0x54 .fault (.faulted r))
        | .ok l => .next (s.issueTarget c x l)
    | .targeted =>
      match s.plan.slot? c.slot with
      | none => .fault .carrierWithoutSlot
      | some x =>
        match x.target with
        | none => .fault .targetedWithoutTarget
        | some t => .next (s.reply .M 0x54 .ok (.target c.tag .targeted t x.corrected))

/-- The figures of a Laid report lie in their ranges (R52). -/
def laidInRange (f : LaidFields) : Bool :=
  f.left.toNat ≤ Config.positionMax && f.right.toNat ≤ Config.positionMax
    && f.topLeft.toNat ≤ Config.topMax && f.topRight.toNat ≤ Config.topMax

/-- The as-laid part a Laid report writes, with the site time at which it is taken (R6, R94). -/
def laidPartOf (f : LaidFields) (now : Nat) : AsLaid :=
  ⟨f.left.toNat, f.right.toNat, f.topLeft.toNat, f.topRight.toNat, now⟩

/-- A carrier leaves the line by a Laid report: its slot loses its tag, gains its as-laid part and enters Set or
Suspect, and the wall's laid count rises (R58, R59, R92, R93). -/
def State.layBrick (c : Carrier) (w : Nat) (st : SlotState) (a : AsLaid) (late : Bool) (s : State) : State :=
  ((s.removeCarrier c.tag).gainLaid w).enter c.slot st fun y => { y with tag := none, asLaid := some a, late := late }

/-- The consequences of a Set verdict (R92, R95). -/
def State.laidAsSet (c : Carrier) (x : Slot) (a : AsLaid) (s : State) : State :=
  ((s.layBrick c x.wall .set a false).rejudgeAroundSet c.slot x).completionTest x.wall

/-- The consequences of entering Suspect, by verdict or by a Late answer (R59, R93). -/
def State.laidAsSuspect (c : Carrier) (x : Slot) (a : AsLaid) (late : Bool) (s : State) : State :=
  ((s.layBrick c x.wall .suspect a late).latchSuspect).rejudgeAroundSuspect x

/-- LAID (R52, R58, R59, R89 to R93). -/
def execLaid (tag : Byte) (f : LaidFields) (s : State) : Result :=
  s.withCarrier 0x55 tag fun c s =>
    if laidInRange f then s.whenFront 0x55 c fun s =>
      if c.stage = .targeted ∨ (c.stage = .expired ∧ c.targeted) then
        match s.plan.slot? c.slot, s.clock with
        | none, _ => .fault .carrierWithoutSlot
        | some _, none => .fault .carrierWithoutClock
        | some x, some now =>
          let a := laidPartOf f now
          if c.stage = .expired then .next ((s.laidAsSuspect c x a true).refuse .M 0x55 .late)
          else
            match x.target with
            | none => .fault .targetedWithoutTarget
            | some t =>
              let d := deviations t a
              match verdict d (s.plan.wall x.wall).params with
              | .set => .next ((s.laidAsSet c x a).reply .M 0x55 .ok (.laid c.tag .set d))
              | _ => .next ((s.laidAsSuspect c x a false).reply .M 0x55 .ok (.laid c.tag .suspect d))
      else .next (s.refuse .M 0x55 .outOfStep)
    else .next (s.refuse .M 0x55 .badValue)

/-- The slot of a carrier that leaves unlaid: it loses its tag and its target part with the open-left and corrected
flags (R4, R5, R60, R69). -/
def Slot.withdrawn (x : Slot) : Slot :=
  { x with tag := none, target := none, openLeft := false, corrected := false }

/-- A carrier that is not Faulted leaves unlaid: its slot enters Planned (R60, R69). -/
def State.returnToPlanned (c : Carrier) (s : State) : State :=
  (s.removeCarrier c.tag).modifySlot c.slot fun x => { x.withdrawn with state := .planned }

/-- A Faulted carrier leaves: its slot enters Fault with reason Drift and PlanFault latches (R61, R69). -/
def State.returnToFault (c : Carrier) (s : State) : State :=
  ((s.removeCarrier c.tag).enter c.slot .fault fun x => { x.withdrawn with faultReason := some .drift }).latchPlanFault

/-- A carrier leaves the line by a Reject report or a line reset (R60, R61, R69). -/
def State.dropCarrier (s : State) (c : Carrier) : State :=
  if c.stage = .faulted then s.returnToFault c else s.returnToPlanned c

/-- REJECT (R60, R61, R30): the slot judged where it entered Planned, and its left neighbour. -/
def execReject (tag : Byte) (reason : Byte) (s : State) : Result :=
  s.withCarrier 0x56 tag fun c s =>
    match s.plan.slot? c.slot with
    | none => .fault .carrierWithoutSlot
    | some x =>
      let s1 := (s.dropCarrier c).rejudge (c.slot :: x.left.toList)
      .next (s1.reply .M 0x56 .ok (.rejected c.tag reason.toNat (s1.plan.stateOf c.slot)))

/-! ### ADHESIVE_EXPIRY -/

/-- A carrier's expiry is due: it is Glued or Targeted and site time has reached its deadline (R62, R106;
assumption 18). -/
def State.expiryDue (s : State) (c : Carrier) : Bool :=
  (c.stage == .glued || c.stage == .targeted)
    && c.deadline.any fun d => s.clock.any fun now => d ≤ now

/-- ADHESIVE_EXPIRY (R62): the carrier becomes Expired and Expiry latches; where none is due the event does not
occur (R63; assumption 2). -/
def execAdhesiveExpiry (tag : Nat) (s : State) : Result :=
  .next (match s.carrier? tag with
    | none => s
    | some c =>
      if s.expiryDue c then (s.modifyCarrier tag fun d => { d with stage := .expired }).latchExpiry else s)

/-! ### Bins, hold, station -/

/-- BIN_STATUS (R64). -/
def execBinStatus (empty : Half) (s : State) : Result :=
  .next ({ s with dispatcher := { s.dispatcher with binEmpty := empty } }.refuse .M 0x57 .ok)

/-- The hold request takes a value and the command is answered with the carriers on the line and HELD (R65). -/
def State.requestHold (code : Byte) (hold : Bool) (s : State) : State :=
  let s1 := { s with dispatcher := { s.dispatcher with hold := hold } }
  s1.reply .P code .ok (.hold s1.line.length s1.held)

/-- HOLD (R65, R66). -/
def execHold (s : State) : Result := .next (s.onPlanPort 0x12 .operational (State.requestHold 0x12 true))

/-- RELEASE (R65, R66). -/
def execRelease (s : State) : Result := .next (s.onPlanPort 0x13 .operational (State.requestHold 0x13 false))

/-- The station a byte names: 0 to 7, or None for FFh; any other value is out of range (R43). -/
def stationOf (v : Byte) : Option (Option Nat) :=
  if v = 0xFF#8 then some none else if v.toNat < 8 then some (some v.toNat) else none

/-- STATION (R43): the value is tested before the line (assumption 13). -/
def execStation (v : Byte) (s : State) : Result :=
  .next (match stationOf v with
    | none => s.refuse .M 0x50 .badValue
    | some st =>
      if s.line.isEmpty then
        ({ s with dispatcher := { s.dispatcher with station := st } }.rejudgeAll).refuse .M 0x50 .ok
      else s.refuse .M 0x50 .lineNotEmpty)

end Sys2Proof.Machine
end

