-- ==== Sys2Proof/Machine/Weather.lean ====
section
/-! DEFINITION. Site time, the conditions record, the gates and the options (spec/06): CLOCK_TICK, SET_TIME,
STALENESS, CONDITIONS, SET_OPTION. -/

namespace Sys2Proof.Machine

open Sys2Proof

/-- The clock is set and below its largest value, so that it counts on and a record can be fresh (R106, R112, R113). -/
def clockCounts (clock : Option Nat) : Bool := clock.any fun now => now < Config.maxTime

/-- The record takes new values, and GateChange and Stale latch where a gate changed and where it turned from fresh
to stale (R122). -/
def State.setConditions (c : Conditions) (s : State) : State :=
  { s with conditions := c }.latchWeather (s.conditions.gatesDiffer c) (!s.conditions.stale && c.stale)

/-- The record becomes stale with every gate Closed (R120). -/
def Conditions.turnStale (c : Conditions) : Conditions := { c.closeGates with stale := true }

/-- The record turns stale if it has not turned stale before (R114). -/
def State.goStale (s : State) : State :=
  if s.conditions.stale then s else s.setConditions s.conditions.turnStale

/-- CLOCK_TICK (R106): a clock that counts advances by one second. What falls due at the new value is taken as events of
their own, but for the staleness of the advance to the largest value: the record is stale while the clock holds that
value, so it turns stale at that advance (R106, R113, R114; assumption 19). -/
def execClockTick (s : State) : Result :=
  .next (match s.clock with
    | none => s
    | some t =>
      let s1 := { s with clock := some (t + 1) }
      if Config.maxTime ≤ t then s else if t + 1 = Config.maxTime then s1.goStale else s1)

/-- SET_TIME (R107). -/
def execSetTime (value : Word) (s : State) : Result :=
  .next (s.onPlanPort 0x39 .planShaping fun s =>
    if s.line.isEmpty then
      ({ s with clock := some value.toNat }.setConditions { s.conditions.turnStale with lastReport := none }).reply .P
        0x39 .ok (.clockSet value.toNat)
    else s.refuse .P 0x39 .lineNotEmpty)

/-- Staleness is due: the record is not stale and the clock has reached its staleness time (R114;
assumption 18). -/
def State.stalenessDue (s : State) : Bool :=
  s.conditions.stalenessTime.any fun d => s.clock.any fun now => d ≤ now

/-- STALENESS (R114); where it is not due the event does not occur (assumption 2). -/
def execStaleness (s : State) : Result :=
  .next (if s.stalenessDue then s.setConditions s.conditions.turnStale else s)

/-- A value clamped into a range (R112, R124). -/
def clampInt (lo hi x : Int) : Int := max lo (min hi x)

/-- The stored values of a report: both clamped, and the range flag set where either was (R112 steps 1 and 2). -/
def Conditions.storeReport (c : Conditions) (temperature : Int) (wind : Nat) : Conditions :=
  { c with
    temperature := clampInt (-40) 85 temperature
    wind := min wind 250
    range := clampInt (-40) 85 temperature != temperature || min wind 250 != wind }

/-- A report taken with the clock set and below its largest value is stamped and makes the record fresh, and the
gates are evaluated (R112); with the clock Unset or at its largest value the record is stale and the gates are Closed
(R113). -/
def Conditions.report (c : Conditions) (o : Options) (clock : Option Nat) (temperature : Int) (wind : Nat) :
    Conditions :=
  let stored := { c.storeReport temperature wind with lastReport := clock }
  if clockCounts clock then ({ stored with stale := false }).evaluateGates o else stored.turnStale

/-- CONDITIONS (R112, R113): the temperature byte is signed; no source latches with the clock Unset or at its largest
value. -/
def execConditions (temperature wind : Byte) (s : State) : Result :=
  let c := s.conditions.report s.options s.clock temperature.toInt wind.toNat
  let s1 := if clockCounts s.clock then s.setConditions c else { s with conditions := c }
  .next (s1.reply .M 0x58 .ok (.weather c))

/-! ### Options -/

/-- The range of an option, by its code (R123); none for a code that names no option. -/
def optionRange (code : Nat) : Option (Int × Int) :=
  match code with
  | 1 => some (60, 3600)
  | 2 => some (0, 255)
  | 3 => some (-40, 85)
  | 4 => some (-40, 85)
  | 5 => some (0, 250)
  | 6 => some (0, 250)
  | 7 => some (0, 250)
  | 8 => some (0, 250)
  | 9 => some (0, 100000)
  | 10 => some (0, 1)
  | _ => none

/-- An option takes a value (R123). -/
def Options.write (o : Options) (code : Nat) (v : Int) : Options :=
  match code with
  | 1 => { o with otRef := v }
  | 2 => { o with slope := v }
  | 3 => { o with tGlueMin := v }
  | 4 => { o with tGlueMax := v }
  | 5 => { o with exposureClose := v }
  | 6 => { o with exposureOpen := v }
  | 7 => { o with stopClose := v }
  | 8 => { o with stopOpen := v }
  | 9 => { o with exposureHeight := v }
  | 10 => { o with autoClear := v }
  | _ => o

/-- The pair relation an option belongs to, on the options as they would stand (R123, R124 step 4). -/
def Options.pairHolds (o : Options) (code : Nat) : Bool :=
  match code with
  | 3 | 4 => o.tGlueMin ≤ o.tGlueMax
  | 5 | 6 => o.exposureOpen < o.exposureClose
  | 7 | 8 => o.stopOpen < o.stopClose
  | _ => true

/-- SET_OPTION (R124): the value is clamped first and its pair relation tested after. -/
def execSetOption (code : Byte) (value : Word) (s : State) : Result :=
  .next (s.onPlanPort 0x3A .planShaping fun s =>
    match optionRange code.toNat with
    | none => s.refuse .P 0x3A .unknown
    | some (lo, hi) =>
      let v := clampInt lo hi value.toInt
      let o := s.options.write code.toNat v
      if o.pairHolds code.toNat then { s with options := o }.reply .P 0x3A .ok (.option code.toNat v)
      else s.refuse .P 0x3A .badValue)

end Sys2Proof.Machine
end

