-- ==== Sys2Proof/Machine/Resets.lean ====
section
/-! DEFINITION. The pins: ESTOP_CHANGE (R67), LINE_RESET (R69, with its parts in every chapter) and POWER_ON_RESET. -/

namespace Sys2Proof.Machine

open Sys2Proof

/-- ESTOP_CHANGE (R67): the input takes a level; nothing else moves. -/
def execEstopChange (asserted : Bool) (s : State) : Result := .next { s with estop := asserted }

/-- The dispatcher at a line reset: the station None, every bin available, the hold request kept (R44, R45, R70). -/
def Dispatcher.lineReset (d : Dispatcher) : Dispatcher := { d with station := none, binEmpty := 0 }

/-- Every carrier leaves the line, front to tail (R69). -/
def State.clearLine (s : State) : State := s.line.foldl State.dropCarrier s

/-- LINE_RESET: the station is None from the first (R44), the carriers leave front to tail (R69), every slot is
re-judged, the record turns stale with its gates Closed (R126), port M's latches are clear at the end (R169), and
port M's receiver goes back to hunting (R170). -/
def execLineReset (s : State) : Result :=
  let s1 := { s with dispatcher := s.dispatcher.lineReset }.clearLine.rejudgeAll
  .next ({ s1 with
    line := []
    conditions := s1.conditions.turnStale
    events := s1.events.clearMachinePort }.setReceiver .M .hunting)

/-- POWER_ON_RESET (R1 and the reset clause of each chapter): everything but the stored code (R148), the level of the
ESTOP input, and what waits outside the part (assumptions 1, 3 and 6). The slot table becomes Empty as R1 says, during
a sweep too, against the remark of R137 on slots already processed (assumption 24, DESIGN CHOICE). -/
def execPowerOnReset (s : State) : Result :=
  .next (State.powerOn s.authority.code s.estop s.inputs s.pending)

end Sys2Proof.Machine
end

