-- ==== Sys2Proof/Machine/Walls.lean ====
section
/-! DEFINITION. The wall lifecycle and the catalogue (spec/01 sections 1.3 and 1.6): WALL_DEFINE, WALL_SET,
WALL_OPEN, PAUSE, RESUME, PRIORITY, CLOSE, WALL_FREE, TYPE_DEFINE. -/

namespace Sys2Proof.Machine

open Sys2Proof

/-- A priority above 7 sets 7 (R18, R23). -/
def cappedPriority (v : Byte) : Nat := min v.toNat 7

/-- The wall record a Wall Define makes (R18). -/
def draftWall (p : WallParams) (priority : Nat) : Wall := ⟨.draft, p, priority, false, false, 0, 0⟩

/-- WALL_DEFINE (R18). -/
def execWallDefine (wall : Byte) (f : WallFields) (priority : Byte) (s : State) : Result :=
  .next (s.onPlanPort 0x20 .planShaping fun s => s.withWall 0x20 wall fun w x s =>
    if x.state ≠ .free then s.refuse .P 0x20 .badState
    else if (wallParamsOf f).inRange then
      ((s.modifyWall w fun _ => draftWall (wallParamsOf f) (cappedPriority priority)).reselect).refuse .P 0x20 .ok
    else s.refuse .P 0x20 .badValue)

/-- The highest course of any non-Empty slot of a wall is at least a course count (R19 test 4). -/
def Plan.courseCountTooLow (p : Plan) (w count : Nat) : Bool := (p.slotsOf w).any fun e => count ≤ e.2.course

/-- Base, course height or course count differs: the geometry parameters (R8, R19). -/
def WallParams.geometryDiffers (a b : WallParams) : Bool :=
  a.base != b.base || a.courseHeight != b.courseHeight || a.courseCount != b.courseCount

/-- The wall is Open or Paused. -/
def WallState.live (st : WallState) : Bool := st == .opened || st == .paused

/-- WALL_SET (R19). -/
def execWallSet (wall : Byte) (f : WallFields) (s : State) : Result :=
  .next (s.onPlanPort 0x21 .planShaping fun s => s.withWall 0x21 wall fun w x s =>
    let p := wallParamsOf f
    if x.state = .free ∨ x.state = .closed then s.refuse .P 0x21 .badState
    else if x.state.live && !s.held then s.refuse .P 0x21 .notHeld
    else if !p.inRange then s.refuse .P 0x21 .badValue
    else if x.state.live && s.plan.courseCountTooLow w p.courseCount then s.refuse .P 0x21 .badValue
    else
      (s.modifyWall w fun y =>
        { y with params := p, audited := y.audited && !p.geometryDiffers y.params }).refuse .P 0x21 .ok)

/-- A wall changes its state and every slot of it is re-judged (R20 to R22, R36). -/
def State.setWallState (w : Nat) (st : WallState) (s : State) : State :=
  (s.modifyWall w fun x => { x with state := st }).rejudgeWall w

/-- WALL_OPEN (R20). -/
def execWallOpen (wall : Byte) (s : State) : Result :=
  .next (s.onPlanPort 0x22 .operational fun s => s.withWall 0x22 wall fun w x s =>
    if x.state ≠ .draft then s.refuse .P 0x22 .badState
    else if x.audited then (s.setWallState w .opened).refuse .P 0x22 .ok
    else s.refuse .P 0x22 .notAudited)

/-- PAUSE (R21). -/
def execPause (wall : Byte) (s : State) : Result :=
  .next (s.onPlanPort 0x23 .operational fun s => s.withWall 0x23 wall fun w x s =>
    if x.state = .opened then (s.setWallState w .paused).refuse .P 0x23 .ok else s.refuse .P 0x23 .badState)

/-- RESUME (R22). -/
def execResume (wall : Byte) (s : State) : Result :=
  .next (s.onPlanPort 0x24 .operational fun s => s.withWall 0x24 wall fun w x s =>
    if x.state = .paused then (s.setWallState w .opened).refuse .P 0x24 .ok else s.refuse .P 0x24 .badState)

/-- PRIORITY (R23, R40): the queue is re-selected by the new keys; no slot is judged. -/
def execPriority (wall value : Byte) (s : State) : Result :=
  .next (s.onPlanPort 0x27 .operational fun s => s.withWall 0x27 wall fun w x s =>
    if x.state = .free then s.refuse .P 0x27 .badState
    else ((s.modifyWall w fun y => { y with priority := cappedPriority value }).reselect).refuse .P 0x27 .ok)

/-- One slot of a wall that closes enters Retired and is presented (R24, R159). -/
def State.retire (s : State) (i : Nat) : State := s.enter i .retired id

/-- The followers of any of several slots (R34). -/
def Plan.followersOfAny (p : Plan) (ids : List Nat) : List Nat := ids.flatMap p.followers

/-- A wall closes: every slot of it is retired in ascending index order, and their followers are re-judged
(R24, R34). -/
def State.closeWall (w : Nat) (s : State) : State :=
  let ids := (s.plan.slotsOf w).map Prod.fst
  let s1 := ids.foldl State.retire (s.modifyWall w fun x => { x with state := .closed })
  s1.rejudge (s1.plan.followersOfAny ids)

/-- CLOSE (R24): the wall is Open or Paused and every non-Empty slot of it is Set. -/
def execClose (wall : Byte) (s : State) : Result :=
  .next (s.onPlanPort 0x25 .operational fun s => s.withWall 0x25 wall fun w x s =>
    if x.state.live && s.plan.allSet w then
      (s.closeWall w).reply .P 0x25 .ok (.count (s.plan.slotsOf w).length)
    else s.refuse .P 0x25 .badState)

/-- What the slots of a freed wall that were Set or Retired leave to be re-judged: their followers and both
neighbours (R34). -/
def Plan.touchedByFreeing (p : Plan) (w : Nat) : List Nat :=
  ((p.slotsOf w).filter fun e => e.2.state.laid).flatMap fun e => p.followers e.1 ++ e.2.neighbours

/-- A wall is freed: its slots become Empty, its record that of a Free wall (R25, R34). -/
def State.freeWall (w : Nat) (s : State) : State :=
  let s1 := { s with plan := { s.plan with slots := s.plan.slots.filter fun e => e.2.wall ≠ w } }
  (s1.modifyWall w fun _ => Wall.freeWall).rejudge (s.plan.touchedByFreeing w)

/-- WALL_FREE (R25). -/
def execWallFree (wall : Byte) (s : State) : Result :=
  .next (s.onPlanPort 0x26 .planShaping fun s => s.withWall 0x26 wall fun w x s =>
    if x.state = .draft ∨ x.state = .closed then
      (s.freeWall w).reply .P 0x26 .ok (.count (s.plan.slotsOf w).length)
    else s.refuse .P 0x26 .badState)

/-- An entry is in use: defined and named by a non-Empty slot (R12). -/
def Plan.typeInUse (p : Plan) (t : Nat) : Bool := (p.brickType t).defined && p.slots.any fun e => e.2.type = t

/-- TYPE_DEFINE (R12): an entry in use is refused whatever the body (assumption 12). -/
def execTypeDefine (type : Byte) (f : TypeFields) (s : State) : Result :=
  .next (s.onPlanPort 0x28 .planShaping fun s =>
    if type.toNat < Config.typeCount then
      if s.plan.typeInUse type.toNat then s.refuse .P 0x28 .inUse
      else
        match typeEntryOf f with
        | none => s.refuse .P 0x28 .badValue
        | some b => { s with plan := s.plan.setType type.toNat b }.refuse .P 0x28 .ok
    else s.refuse .P 0x28 .badAddress)

end Sys2Proof.Machine
end

