-- ==== Sys2Proof/Machine/Slots.lean ====
section
/-! DEFINITION. Plan editing slot by slot (spec/07 sections 7.1 and 7.2) and the engineer's two answers to a Suspect
slot (section 5.4): SLOT_LOAD, SLOT_RESTORE, SLOT_AMEND, SLOT_DELETE, WITHHOLD, FREE, CLEAR, ACCEPT, LIFT. -/

namespace Sys2Proof.Machine

open Sys2Proof

/-! ### SLOT_LOAD -/

/-- The result code of a load record, its tests in order (R127). -/
def Plan.testLoad (p : Plan) (r : LoadRecord) : Status :=
  let x := slotOfFields r.plan .planned
  if !isIndex r.index.toNat then .badValue
  else if (p.slot? r.index.toNat).isSome then .full
  else if !decide (x.wall < Config.wallCount) then .badValue
  else if (p.wall x.wall).state ≠ .draft then .badState
  else if p.fieldsInRange r.plan.drawn.supportCount.toNat x then .ok
  else .badValue

/-- A load record that passes becomes a Planned slot and is judged (R128). -/
def State.loadSlot (r : LoadRecord) (s : State) : State :=
  let x := slotOfFields r.plan .planned
  (((s.putSlot r.index.toNat x).gainSlot x.wall).clearAudited x.wall).rejudge [r.index.toNat]

/-- What the records of a frame have brought so far: the state, the result codes, the records loaded, and whether
some record named an Empty slot when it was tested (R128). -/
structure LoadProgress where
  state : State
  codes : List Status
  loaded : Nat
  namedEmpty : Bool

/-- One record is tested, then loaded or refused as a whole (R127). -/
def LoadProgress.take (a : LoadProgress) (r : LoadRecord) : LoadProgress :=
  let code := a.state.plan.testLoad r
  let named := a.namedEmpty || (isIndex r.index.toNat && (a.state.plan.slot? r.index.toNat).isNone)
  if code = .ok then ⟨a.state.loadSlot r, a.codes ++ [code], a.loaded + 1, named⟩
  else ⟨a.state, a.codes ++ [code], a.loaded, named⟩

/-- The records of a frame, in frame order. -/
def State.loadRecords (rs : List LoadRecord) (s : State) : LoadProgress :=
  rs.foldl LoadProgress.take ⟨s, [], 0, false⟩

/-- The status byte of a Slot Load response (R128). -/
def LoadProgress.status (a : LoadProgress) : Status :=
  if 0 < a.loaded then .ok else if a.namedEmpty then a.codes.headD .full else .full

/-- SLOT_LOAD (R127, R128). A frame carries one to eight records; any other number has the wrong size (R172). -/
def execSlotLoad (rs : List LoadRecord) (s : State) : Result :=
  .next (if rs.length = 0 ∨ 8 < rs.length then s.refuse .P 0x30 .malformed
    else s.onPlanPort 0x30 .planShaping fun s =>
      let a := s.loadRecords rs
      a.state.reply .P 0x30 a.status (.load a.loaded a.codes))

/-! ### SLOT_RESTORE -/

/-- A restored slot becomes Set with its as-laid part; neighbours and followers are re-judged (R130). -/
def State.restoreSlot (i : Nat) (x : Slot) (a : AsLaid) (s : State) : State :=
  let y := { x with state := .set, asLaid := some a }
  let s1 := (((s.putSlot i y).gainSlot x.wall).gainLaid x.wall).clearAudited x.wall
  (s1.present i .set).rejudgeAroundSet i x

/-- SLOT_RESTORE (R129, R130). -/
def execSlotRestore (a : SlotAddress) (f : PlanFields) (laid : AsLaidFields) (s : State) : Result :=
  .next (s.onPlanPort 0x31 .planShaping fun s => s.withAddress .P 0x31 a fun i s =>
    let x := slotOfFields f .set
    if (s.plan.slot? i).isSome then s.refuse .P 0x31 .badState
    else if !decide (x.wall < Config.wallCount) then s.refuse .P 0x31 .badValue
    else if (s.plan.wall x.wall).state ≠ .draft then s.refuse .P 0x31 .badState
    else if s.plan.restoreInRange f.drawn.supportCount.toNat x (asLaidOf laid) then
      (s.restoreSlot i x (asLaidOf laid)).refuse .P 0x31 .ok
    else s.refuse .P 0x31 .badValue)

/-! ### SLOT_AMEND -/

/-- The slot as it would stand after an amendment: the named fields new, the others kept (R131; field set bits of
section 10.5). -/
def amended (x : Slot) (fields : Byte) (f : DrawnFields) : Slot :=
  { x with
    designLeft := if fields.getLsbD 0 then f.designLeft.toNat else x.designLeft
    type := if fields.getLsbD 1 then f.type.toNat else x.type
    planCut := if fields.getLsbD 2 then planCutOf f.planCut else x.planCut
    supports := if fields.getLsbD 3 then supportsOf f else x.supports
    left := if fields.getLsbD 4 then linkOf f.left else x.left
    right := if fields.getLsbD 5 then linkOf f.right else x.right
    reach := if fields.getLsbD 6 then f.reach else x.reach }

/-- The support count the ranges are judged on: the carried one where the supports are named. -/
def amendedSupportCount (x : Slot) (fields : Byte) (f : DrawnFields) : Nat :=
  if fields.getLsbD 3 then f.supportCount.toNat else x.supports.length

/-- An edit replaces a slot's fields; where a field differs the wall's audited flag is cleared, and the slot is
re-judged (R132, R35). -/
def State.editSlot (i : Nat) (x y : Slot) (s : State) : State :=
  let s1 := s.modifySlot i fun _ => y
  (if y = x then s1 else s1.clearAudited x.wall).rejudge [i]

/-- SLOT_AMEND (R131, R132). A slot in Fault needs no HELD in any wall, as R131 says, against the remark of R87
(assumption 23, DESIGN CHOICE). Bit 7 of the field set names no field and is out of range (assumption 14). -/
def execSlotAmend (a : SlotAddress) (fields : Byte) (f : DrawnFields) (s : State) : Result :=
  .next (s.onPlanPort 0x32 .planShaping fun s => s.withSlot 0x32 a fun i x s =>
    let y := amended x fields f
    if x.state = .claimed then s.refuse .P 0x32 .inFlight
    else if (s.plan.wall x.wall).state.live && x.state != .fault && !s.held then s.refuse .P 0x32 .notHeld
    else if x.state.laid then s.refuse .P 0x32 .badState
    else if fields.getLsbD 7 || !s.plan.fieldsInRange (amendedSupportCount x fields f) y then
      s.refuse .P 0x32 .badValue
    else
      let s1 := s.editSlot i x y
      s1.reply .P 0x32 .ok (.slotState (s1.plan.stateOf i)))

/-! ### SLOT_DELETE, WITHHOLD, FREE, CLEAR -/

/-- SLOT_DELETE (R133): no other slot is re-judged (R34). -/
def execSlotDelete (a : SlotAddress) (s : State) : Result :=
  .next (s.onPlanPort 0x33 .planShaping fun s => s.withSlot 0x33 a fun i x s =>
    if (s.plan.wall x.wall).state ≠ .draft ∨ x.state ≠ .planned then s.refuse .P 0x33 .badState
    else (((s.eraseSlot i).loseSlot x.wall).clearAudited x.wall).refuse .P 0x33 .ok)

/-- The withheld flag of a slot that is neither Claimed nor laid takes a value and the slot is re-judged; a laid
slot keeps its flag, and where the flag has the value already nothing changes (R134, R139). -/
def State.setWithheld (i : Nat) (x : Slot) (flag : Bool) (s : State) : State :=
  if x.state.laid || x.withheld == flag then s else (s.modifySlot i fun y => { y with withheld := flag }).rejudge [i]

/-- The withheld flag of a slot as it stands. -/
def Plan.withheldOf (p : Plan) (i : Nat) : Bool := (p.slot? i).any Slot.withheld

/-- Withhold and Free on one slot (R134). -/
def State.withholdCommand (code : Byte) (flag : Bool) (i : Nat) (x : Slot) (s : State) : State :=
  if x.state = .claimed then s.refuse .P code .inFlight
  else
    let s1 := s.setWithheld i x flag
    s1.reply .P code .ok (.withheld (s1.plan.stateOf i) (s1.plan.withheldOf i))

/-- WITHHOLD (R134). -/
def execWithhold (a : SlotAddress) (s : State) : Result :=
  .next (s.onPlanPort 0x34 .operational fun s => s.withSlot 0x34 a (State.withholdCommand 0x34 true))

/-- FREE (R134). -/
def execFree (a : SlotAddress) (s : State) : Result :=
  .next (s.onPlanPort 0x35 .operational fun s => s.withSlot 0x35 a (State.withholdCommand 0x35 false))

/-- CLEAR (R135). -/
def execClear (a : SlotAddress) (s : State) : Result :=
  .next (s.onPlanPort 0x36 .planShaping fun s => s.withSlot 0x36 a fun i x s =>
    if x.state ≠ .fault then s.refuse .P 0x36 .badState
    else
      let s1 := (s.modifySlot i fun y => { y with state := .planned, faultReason := none }).rejudge [i]
      s1.reply .P 0x36 .ok (.slotState (s1.plan.stateOf i)))

/-! ### ACCEPT and LIFT -/

/-- ACCEPT (R97, R98). -/
def execAccept (a : SlotAddress) (s : State) : Result :=
  .next (s.onPlanPort 0x37 .planShaping fun s => s.withSlot 0x37 a fun i x s =>
    if x.state ≠ .suspect then s.refuse .P 0x37 .badState
    else
      let s1 := (s.enter i .set id).rejudgeAroundSet i x
      (s1.completionTest x.wall).reply .P 0x37 .ok (.accepted .set (s1.plan.allSet x.wall)))

/-- Some follower of the slot is Claimed or laid (R99). -/
def Plan.hasBuiltFollower (p : Plan) (i : Nat) : Bool :=
  (p.followers i).any fun j => p.stateOf j == .claimed || p.isLaid j

/-- The slot without the brick: no as-laid part and no late flag, no target part and none of its flags (R100). -/
def Slot.lifted (x : Slot) : Slot :=
  { x with state := .planned, asLaid := none, late := false, target := none, openLeft := false, corrected := false }

/-- A Suspect slot returns to Planned; it and both neighbours are re-judged (R100, R101). -/
def State.liftSlot (i : Nat) (x : Slot) (s : State) : State :=
  let s1 := (s.modifySlot i Slot.lifted).loseLaid x.wall
  (s1.modifyWall x.wall fun w => { w with complete := false }).rejudge (i :: x.neighbours)

/-- LIFT (R99 to R101). -/
def execLift (a : SlotAddress) (s : State) : Result :=
  .next (s.onPlanPort 0x38 .planShaping fun s => s.withSlot 0x38 a fun i x s =>
    if x.state ≠ .suspect then s.refuse .P 0x38 .badState
    else if s.plan.hasBuiltFollower i then s.refuse .P 0x38 .hasFollowers
    else
      let s1 := s.liftSlot i x
      s1.reply .P 0x38 .ok (.slotState (s1.plan.stateOf i)))

end Sys2Proof.Machine
end

