-- ==== Sys2Proof/Machine/Sweeps.lean ====
section
/-! DEFINITION. The Edit Engine (spec/07 sections 7.3 to 7.5): the four Sweep rows, SWEEP_STEP, AUDIT, AUDIT_STEP,
ABORT. -/

namespace Sys2Proof.Machine

open Sys2Proof

/-! ### Taking a Sweep (R136) -/

/-- The direction a byte names: 0 up, 1 down (section 10.5). -/
def directionOf (b : Byte) : Option Direction :=
  match b.toNat with
  | 0 => some .up
  | 1 => some .down
  | _ => none

/-- The condition two bytes name; for None the state byte is ignored (section 10.5). -/
def conditionOf (condition state : Byte) : Option SweepCondition :=
  match condition.toNat with
  | 0 => some .always
  | 1 => (slotStateOf state).map .whileIn
  | 2 => (slotStateOf state).map .untilIn
  | _ => none

/-- The count carried: 0 means 4096, and a count above 4096 is out of range (R136, R173). -/
def sweepCountOf (h : Half) : Option Nat :=
  if h.toNat = 0 then some 4096 else if h.toNat ≤ 4096 then some h.toNat else none

/-- A Shift's delta, −10000 to 10000 (R136). -/
def shiftOf (h : Half) : Option SweepOp :=
  if -10000 ≤ h.toInt ∧ h.toInt ≤ 10000 then some (.shift h.toInt) else none

/-- A Retype's type, in the low byte: 0 to 63 and defined (R136). -/
def Plan.retypeOf (p : Plan) (h : Half) : Option SweepOp :=
  let t := (h.setWidth 8 : Byte).toNat
  if t < Config.typeCount ∧ (p.brickType t).defined then some (.retype t) else none

/-- The context of a Sweep that starts at an index, or none where an operand is out of its range (R136, R137). -/
def sweepContextOf (i : Nat) (op : Option SweepOp) (f : SweepFields) : Option SweepContext :=
  match op, sweepCountOf f.count, directionOf f.direction, conditionOf f.condition f.state with
  | some op, some n, some d, some c => some ⟨i, n, d, op, c, none, false⟩
  | _, _, _, _ => none

/-- An admitted Sweep: its start address is resolved, its operands tested, and its context written; no response is
sent yet, and an ending response held behind this frame's answer waits for it no longer (R136, R137, R174). -/
def State.startSweep (op : Option SweepOp) (f : SweepFields) (s : State) : State :=
  s.withAddress .P 0x10 f.start fun i s =>
    match sweepContextOf i op f with
    | none => s.refuse .P 0x10 .badValue
    | some c => { s with engine := .sweep c }.release .P

/-- SWEEP_WITHHOLD (R136): an operation byte that names no operation is admitted as operational and refused by its
own tests (R150; assumption 9). -/
def execSweepWithhold (op : Byte) (f : SweepFields) (s : State) : Result :=
  .next (s.onPlanPort 0x10 .operational (State.startSweep (if op = 0#8 then some .withhold else none) f))

/-- SWEEP_FREE (R136). -/
def execSweepFree (f : SweepFields) (s : State) : Result :=
  .next (s.onPlanPort 0x10 .operational (State.startSweep (some .free) f))

/-- SWEEP_SHIFT (R136). -/
def execSweepShift (f : SweepFields) (s : State) : Result :=
  .next (s.onPlanPort 0x10 .planShaping (State.startSweep (shiftOf f.deltaOrType) f))

/-- SWEEP_RETYPE (R136). -/
def execSweepRetype (f : SweepFields) (s : State) : Result :=
  .next (s.onPlanPort 0x10 .planShaping fun s => s.startSweep (s.plan.retypeOf f.deltaOrType) f)

/-! ### SWEEP_STEP (R138 to R141) -/

/-- The status byte of an ending (R141). -/
def SweepEnd.status : SweepEnd → Status
  | .done => .ok
  | .condEnd => .ok
  | .aborted => .aborted
  | .edge => .edge
  | .inFlight => .inFlight
  | .badState => .badState
  | .notHeld => .notHeld
  | .badValue => .badValue

/-- The sweep ends: its context is removed and its response falls due (R141). -/
def State.endSweep (c : SweepContext) (r : SweepEnd) (s : State) : State :=
  { s with engine := .idle }.dueOnPlanPort ⟨0x10, r.status, .sweepEnd r c.last c.remaining⟩

/-- Test 4 of R138. -/
def SweepCondition.passes (c : SweepCondition) (st : SlotState) : Bool :=
  match c with
  | .always => true
  | .whileIn s => st == s
  | .untilIn s => st != s

/-- A Withhold or Free step on a slot (R139). -/
def State.sweepWithheld (i : Nat) (flag : Bool) (s : State) : Except SweepEnd State :=
  match s.plan.slot? i with
  | none => .ok s
  | some x => if x.state = .claimed then .error .inFlight else .ok (s.setWithheld i x flag)

/-- A Shift or Retype step changes a field: the wall's audited flag is cleared; a Ready slot is re-judged and placed
again by its new key, a Planned or Fault slot keeps its state (R140; assumption 22). -/
def State.sweepChange (i : Nat) (x y : Slot) (s : State) : State :=
  if x.state = .ready then s.editSlot i x y else (s.modifySlot i fun _ => y).clearAudited x.wall

/-- A Shift or Retype step on a slot, its tests in order (R140); the edit gives the slot as it would stand, or none
where it fails a range. -/
def State.sweepEdit (i : Nat) (edit : Slot → Option Slot) (s : State) : Except SweepEnd State :=
  match s.plan.slot? i with
  | none => .ok s
  | some x =>
    if x.state = .claimed then .error .inFlight
    else if x.state.laid then .error .badState
    else if (s.plan.wall x.wall).state.live && !s.held then .error .notHeld
    else
      match edit x with
      | none => .error .badValue
      | some y => if y = x then .ok s else .ok (s.sweepChange i x y)

/-- Shift adds the delta to the design left, which must stay 0 to 200000 (R140). -/
def shifted (delta : Int) (x : Slot) : Option Slot :=
  let d : Int := (x.designLeft : Int) + delta
  if 0 ≤ d ∧ d ≤ (Config.positionMax : Int) then some { x with designLeft := d.toNat } else none

/-- Retype sets the type, into which the slot's plan cut must fit (R140). -/
def Plan.retyped (p : Plan) (t : Nat) (x : Slot) : Option Slot :=
  if x.planCut.all fun c => inRange (p.brickType t).minCut (p.brickType t).length c then some { x with type := t }
  else none

/-- Step 5 of R138. -/
def State.sweepApply (i : Nat) (op : SweepOp) (s : State) : Except SweepEnd State :=
  match op with
  | .withhold => s.sweepWithheld i true
  | .free => s.sweepWithheld i false
  | .shift d => s.sweepEdit i (shifted d)
  | .retype t => s.sweepEdit i (s.plan.retyped t)

/-- Step 6 of R138: the context after a slot is processed. -/
def SweepContext.processed (c : SweepContext) (i : Nat) : SweepContext :=
  { c with
    last := some i
    index := match c.direction with
      | .up => c.index + 1
      | .down => c.index - 1
    remaining := c.remaining - 1 }

/-- One step of a running sweep, its tests in order (R138). -/
def State.sweepStep (c : SweepContext) (s : State) : State :=
  if c.abortPending then s.endSweep c .aborted
  else if c.remaining = 0 then s.endSweep c .done
  else if c.index < 0 ∨ (Config.slotCount : Int) ≤ c.index then s.endSweep c .edge
  else
    let i := c.index.toNat
    if c.condition.passes (s.plan.stateOf i) then
      match s.sweepApply i c.op with
      | .error r => s.endSweep c r
      | .ok s1 => { s1 with engine := .sweep (c.processed i) }.setCursor .P i
    else s.endSweep c .condEnd

/-- SWEEP_STEP (R138); with no sweep running the event does not occur (assumption 2). -/
def execSweepStep (s : State) : Result :=
  .next (match s.engine with
    | .sweep c => s.sweepStep c
    | _ => s)

/-! ### AUDIT and AUDIT_STEP (R143 to R145) -/

/-- AUDIT (R143): the context is written; no response is sent yet, and no cursor moves. -/
def execAudit (wall : Byte) (s : State) : Result :=
  .next (s.onPlanPort 0x0F .read fun s => s.withWall 0x0F wall fun w x s =>
    if x.state = .free then s.refuse .P 0x0F .badState else { s with engine := .audit ⟨w, none, false⟩ }.release .P)

/-- The span of one slot overlaps that of another: some position lies in both (R144). -/
def Plan.overlaps (p : Plan) (x y : Slot) : Bool :=
  max x.designLeft y.designLeft < min (x.designLeft + p.fullLength x) (y.designLeft + p.fullLength y)

/-- A support passes a test on its record; an Empty support passes none. -/
def Plan.supportIs (p : Plan) (j : Nat) (test : Slot → Bool) : Bool := (p.slot? j).any test

/-- A left neighbour link is sound: absent, or a slot of the same wall and course with a lower design left that
names this slot as its right neighbour (R144). -/
def Plan.leftSound (p : Plan) (i : Nat) (x : Slot) : Bool :=
  x.left.all fun j => p.supportIs j fun y =>
    y.wall == x.wall && y.course == x.course && y.designLeft < x.designLeft && y.right == some i

/-- A right neighbour link is sound (R144). -/
def Plan.rightSound (p : Plan) (i : Nat) (x : Slot) : Bool :=
  x.right.all fun j => p.supportIs j fun y =>
    y.wall == x.wall && y.course == x.course && x.designLeft < y.designLeft && y.left == some i

/-- The first failure of a slot, in the order of R144's table. -/
def Plan.auditSlot (p : Plan) (i : Nat) (x : Slot) : Option AuditFailure :=
  if !(p.brickType x.type).defined then some .typeUndefined
  else if (p.wall x.wall).params.courseCount ≤ x.course then some .courseRange
  else if x.course = 0 ∧ x.supports ≠ [] then some .courseZeroSupport
  else if 0 < x.course ∧ x.supports = [] then some .supportMissing
  else if !x.supports.all fun j => p.supportIs j fun y => y.wall == x.wall then some .supportOtherWall
  else if !x.supports.all fun j => p.supportIs j fun y => y.course + 1 == x.course then some .supportCourse
  else if !x.supports.all fun j => p.supportIs j fun y => p.overlaps y x then some .supportNoOverlap
  else if p.slots.any fun e => e.1 != i && e.2.wall == x.wall && e.2.course == x.course && p.overlaps e.2 x then
    some .courseOverlap
  else if !(p.leftSound i x && p.rightSound i x) then some .neighbourLink
  else if x.reach = 0#8 then some .reachEmpty
  else none

/-- An index lies above the last slot audited, or none has been (R143 step 2). -/
def aboveLast (last : Option Nat) (i : Nat) : Bool := last.all fun l => l < i

/-- The slots of the wall not yet audited, in index order. -/
def Plan.unaudited (p : Plan) (c : AuditContext) : SlotTable :=
  (p.slotsOf c.wall).filter fun e => aboveLast c.last e.1

/-- The audit ends: its context is removed and its response falls due (R145). -/
def State.endAudit (st : Status) (b : Body) (s : State) : State :=
  { s with engine := .idle }.dueOnPlanPort ⟨0x0F, st, b⟩

/-- One step of a running audit (R143, R145). -/
def State.auditStep (c : AuditContext) (s : State) : State :=
  if c.abortPending then s.endAudit .aborted (.auditAborted c.last (s.plan.unaudited c).length)
  else
    match s.plan.unaudited c with
    | [] =>
      (s.modifyWall c.wall fun x => { x with audited := true }).endAudit .ok
        (.auditPass (s.plan.slotsOf c.wall).length)
    | (i, x) :: rest =>
      match s.plan.auditSlot i x with
      | some r => s.endAudit .auditFail (.auditFail r i rest.length)
      | none => { s with engine := .audit { c with last := some i } }

/-- AUDIT_STEP (R143); with no audit running the event does not occur (assumption 2). -/
def execAuditStep (s : State) : Result :=
  .next (match s.engine with
    | .audit c => s.auditStep c
    | _ => s)

/-! ### ABORT (R147) -/

/-- ABORT (R147): the one port P command taken while port P is Busy; open to every level. -/
def execAbort (s : State) : Result :=
  .next (match s.engine with
    | .idle => s.refuse .P 0x11 .notBusy
    | .sweep c => { s with engine := .sweep { c with abortPending := true } }.refuse .P 0x11 .ok
    | .audit c => { s with engine := .audit { c with abortPending := true } }.refuse .P 0x11 .ok)

end Sys2Proof.Machine
end

