-- ==== Sys2Proof/Machine/Watches.lean ====
section
/-! DEFINITION. Watches and event sources (spec/09): WATCH_SET, WATCH_READ, EVENT_FETCH, EVENT_MASK. -/

namespace Sys2Proof.Machine

open Sys2Proof

/-- A wall or course byte of Watch Set: FFh is Any, and a value at or above the limit is out of range (R158). -/
def anyOf (b : Byte) (limit : Nat) : Option (Option Nat) :=
  if b = 0xFF#8 then some none else if b.toNat < limit then some (some b.toNat) else none

/-- The mode a byte names (section 10.5). -/
def watchModeOf (b : Byte) : Option WatchMode :=
  match b.toNat with
  | 0 => some .once
  | 1 => some .every
  | _ => none

/-- The record a Watch Set writes, or none where a field is out of its range (R158 tests 2 to 4): latch, count, last
slot and last time start anew. -/
def watchRecordOf (f : WatchFields) : Option Watch :=
  match flagOf f.enabled, anyOf f.wall Config.wallCount, anyOf f.course 64, enteredStateOf f.state, watchModeOf f.mode with
  | some enabled, some wall, some course, some entered, some mode =>
    some ⟨enabled, wall, course, entered, mode, false, 0, none, none⟩
  | _, _, _, _, _ => none

/-- WATCH_SET (R158). -/
def execWatchSet (f : WatchFields) (s : State) : Result :=
  .next (s.onPlanPort 0x0E .operational fun s =>
    if f.number.toNat < Config.watchCount then
      match watchRecordOf f with
      | none => s.refuse .P 0x0E .badValue
      | some w =>
        { s with events :=
          { s.events with watches := s.events.watches.setIfInBounds f.number.toNat w } }.reply .P 0x0E .ok (.watch w)
    else s.refuse .P 0x0E .badAddress)

/-- The latched field of all eight watches is cleared (R161). -/
def Events.clearWatches (e : Events) : Events :=
  { e with watches := eachWatch (fun w => { w with latched := false }) e.watches }

/-- WATCH_READ (R161): the response shows the latches as they stood before an auto-clear. -/
def execWatchRead (s : State) : Result :=
  .next (s.onPlanPort 0x0D .read fun s =>
    (if s.options.autoClear = 1 then { s with events := s.events.clearWatches } else s).reply .P 0x0D .ok
      (.watches s.events.watches))

/-- EVENT_FETCH (R164): the lowest latched, unmasked source of the port is returned and its latch cleared. -/
def execEventFetch (p : Port) (s : State) : Result :=
  .next (s.onPort p 0x0A .read fun s =>
    let v := s.events.vector p
    let e := if v = 0 then s.events else s.events.clearLatch p v
    { s with events := e }.reply p 0x0A .ok (.event v (e.latches p) (e.masks p)))

/-- The masks of a port's sources are replaced whole; bits beyond the port's sources are ignored (R165,
section 10.5). -/
def Events.setMasks (e : Events) (mask : Half) : Port → Events
  | .P => { e with maskP := mask.setWidth 11 }
  | .M => { e with maskM := mask.setWidth 3 }

/-- EVENT_MASK (R165). -/
def execEventMask (p : Port) (mask : Half) (s : State) : Result :=
  .next (s.onPort p 0x0B .operational fun s =>
    let e := s.events.setMasks mask p
    { s with events := e }.reply p 0x0B .ok (.masks (e.masks p) (e.latches p)))

end Sys2Proof.Machine
end

