-- ==== Sys2Proof/Machine/Dispatch.lean ====
section
/-! DEFINITION. One arm for each row of the opcode table, each a direct call of the row's meaning. -/

namespace Sys2Proof.Machine

open Sys2Proof

def exec (i : Instr) (s : State) : Host.Outcome State Fault Refusal :=
  match i with
  | .slotRead p a => Sys2Proof.Machine.execSlotRead p a s
  | .wallRead p wall => Sys2Proof.Machine.execWallRead p wall s
  | .typeRead p type => Sys2Proof.Machine.execTypeRead p type s
  | .queueRead p count => Sys2Proof.Machine.execQueueRead p count s
  | .lineRead p => Sys2Proof.Machine.execLineRead p s
  | .readTime p => Sys2Proof.Machine.execReadTime p s
  | .conditionsRead p => Sys2Proof.Machine.execConditionsRead p s
  | .optionRead p => Sys2Proof.Machine.execOptionRead p s
  | .status p => Sys2Proof.Machine.execStatus p s
  | .eventFetch p => Sys2Proof.Machine.execEventFetch p s
  | .eventMask p mask => Sys2Proof.Machine.execEventMask p mask s
  | .authorityRead => Sys2Proof.Machine.execAuthorityRead s
  | .watchRead => Sys2Proof.Machine.execWatchRead s
  | .watchSet w => Sys2Proof.Machine.execWatchSet w s
  | .audit wall => Sys2Proof.Machine.execAudit wall s
  | .sweepWithhold op f => Sys2Proof.Machine.execSweepWithhold op f s
  | .sweepFree f => Sys2Proof.Machine.execSweepFree f s
  | .sweepShift f => Sys2Proof.Machine.execSweepShift f s
  | .sweepRetype f => Sys2Proof.Machine.execSweepRetype f s
  | .abort => Sys2Proof.Machine.execAbort s
  | .hold => Sys2Proof.Machine.execHold s
  | .release => Sys2Proof.Machine.execRelease s
  | .unlock code => Sys2Proof.Machine.execUnlock code s
  | .lock => Sys2Proof.Machine.execLock s
  | .setCode presence code => Sys2Proof.Machine.execSetCode presence code s
  | .freeze => Sys2Proof.Machine.execFreeze s
  | .wallDefine wall f priority => Sys2Proof.Machine.execWallDefine wall f priority s
  | .wallSet wall f => Sys2Proof.Machine.execWallSet wall f s
  | .wallOpen wall => Sys2Proof.Machine.execWallOpen wall s
  | .pause wall => Sys2Proof.Machine.execPause wall s
  | .resume wall => Sys2Proof.Machine.execResume wall s
  | .priority wall value => Sys2Proof.Machine.execPriority wall value s
  | .close wall => Sys2Proof.Machine.execClose wall s
  | .wallFree wall => Sys2Proof.Machine.execWallFree wall s
  | .typeDefine type f => Sys2Proof.Machine.execTypeDefine type f s
  | .slotLoad records => Sys2Proof.Machine.execSlotLoad records s
  | .slotRestore a f laid => Sys2Proof.Machine.execSlotRestore a f laid s
  | .slotAmend a fields f => Sys2Proof.Machine.execSlotAmend a fields f s
  | .slotDelete a => Sys2Proof.Machine.execSlotDelete a s
  | .withhold a => Sys2Proof.Machine.execWithhold a s
  | .free a => Sys2Proof.Machine.execFree a s
  | .clear a => Sys2Proof.Machine.execClear a s
  | .accept a => Sys2Proof.Machine.execAccept a s
  | .lift a => Sys2Proof.Machine.execLift a s
  | .setTime value => Sys2Proof.Machine.execSetTime value s
  | .setOption code value => Sys2Proof.Machine.execSetOption code value s
  | .setEpl level => Sys2Proof.Machine.execSetEpl level s
  | .station value => Sys2Proof.Machine.execStation value s
  | .claim => Sys2Proof.Machine.execClaim s
  | .cutDone tag => Sys2Proof.Machine.execCutDone tag s
  | .glued tag => Sys2Proof.Machine.execGlued tag s
  | .targetRequest tag => Sys2Proof.Machine.execTargetRequest tag s
  | .laid tag f => Sys2Proof.Machine.execLaid tag f s
  | .reject tag reason => Sys2Proof.Machine.execReject tag reason s
  | .binStatus empty => Sys2Proof.Machine.execBinStatus empty s
  | .conditions temperature wind => Sys2Proof.Machine.execConditions temperature wind s
  | .sweepStep => Sys2Proof.Machine.execSweepStep s
  | .auditStep => Sys2Proof.Machine.execAuditStep s
  | .clockTick => Sys2Proof.Machine.execClockTick s
  | .adhesiveExpiry tag => Sys2Proof.Machine.execAdhesiveExpiry tag s
  | .staleness => Sys2Proof.Machine.execStaleness s
  | .frameGapTimeout p => Sys2Proof.Machine.execFrameGapTimeout p s
  | .frameCheckFail p frame => Sys2Proof.Machine.execFrameCheckFail p frame s
  | .unknownCode p code body => Sys2Proof.Machine.execUnknownCode p code body s
  | .endingResponseSend => Sys2Proof.Machine.execEndingResponseSend s
  | .estopChange asserted => Sys2Proof.Machine.execEstopChange asserted s
  | .lineReset => Sys2Proof.Machine.execLineReset s
  | .powerOnReset => Sys2Proof.Machine.execPowerOnReset s
  | .frameLengthOutOfRange p length => Sys2Proof.Machine.execFrameLengthOutOfRange p length s

end Sys2Proof.Machine
end

