-- ==== Sys2Proof/Safety.lean ====
section
/-! DEFINITION. The laws of the part, as its chapters name them, and what a safe run is: every state meets the laws,
and no command stops the machine. Each law is a decidable statement about plain data. -/

namespace Sys2Proof.Machine

open Sys2Proof

/-! ### Ready queue and boom line -/

/-- The queue law (R38). -/
abbrev State.queueLaw (s : State) : Prop := s.dispatcher.queue = s.plan.queueByLaw

/-- The slot a carrier names is Claimed and holds the carrier's tag (R5, R46). -/
def Plan.claimedBy (p : Plan) (c : Carrier) : Bool :=
  (p.slot? c.slot).any fun x => x.state == .claimed && x.tag == some c.tag

/-- The boom line law (R46): tags are 0 to 7 and distinct, every carrier's slot is Claimed with its tag, and every
Claimed slot has a carrier. -/
abbrev State.lineLaw (s : State) : Prop :=
  (s.line.map Carrier.tag).Nodup
    ∧ (∀ c ∈ s.line, c.tag < Config.lineCapacity ∧ s.plan.claimedBy c = true)
    ∧ ∀ e ∈ s.plan.slots, e.2.state = .claimed → ∃ c ∈ s.line, c.slot = e.1

/-- The site clock is set whenever a carrier is on the line (R54). -/
abbrev State.clockLaw (s : State) : Prop := s.line ≠ [] → s.clock.isSome = true

/-- A Targeted carrier carries its targeted flag, and a targeted carrier's slot has its target part (R56, R89). -/
abbrev State.targetLaw (s : State) : Prop :=
  ∀ c ∈ s.line, (c.stage = .targeted → c.targeted = true)
    ∧ (c.targeted = true → ((s.plan.slot? c.slot).any fun x => x.target.isSome) = true)

/-- At most one carrier is Faulted, and it is the front carrier (R57). -/
abbrev State.faultedLaw (s : State) : Prop := ∀ c ∈ s.line.tail, c.stage ≠ .faulted

/-! ### Plan Store -/

/-- The wall states in which a slot of a given state may stand (R18 to R25, R127 to R133). -/
def SlotState.fitsWall : SlotState → WallState → Bool
  | .empty, _ => false
  | .planned, w => w == .draft || w == .opened || w == .paused
  | .ready, w => w == .opened
  | .claimed, w => w == .opened || w == .paused
  | .set, w => w == .draft || w == .opened || w == .paused
  | .suspect, w => w == .opened || w == .paused
  | .fault, w => w == .opened || w == .paused
  | .retired, w => w == .closed

/-- Every slot stands in a wall of the table whose state admits the slot's: among others, a non-Empty slot is
Retired exactly when its wall is Closed (R24). -/
abbrev Plan.wallLaw (p : Plan) : Prop :=
  ∀ e ∈ p.slots, e.2.wall < Config.wallCount ∧ e.2.state.fitsWall (p.wall e.2.wall).state = true

/-- The optional parts of a slot are those its state calls for (the table under R6), and its flags go with them
(R4). -/
def Slot.partsFit (x : Slot) : Bool :=
  (x.tag.isSome == (x.state == .claimed))
    && (x.asLaid.isSome == x.state.laid)
    && (x.faultReason.isSome == (x.state == .fault))
    && (x.target.isNone || x.state == .claimed || x.state.laid)
    && (x.state != .suspect || x.target.isSome)
    && (!x.late || x.asLaid.isSome)
    && (!(x.openLeft || x.corrected) || x.target.isSome)

/-- Every slot holds the optional parts its state calls for (R5, R6). -/
abbrev Plan.partsLaw (p : Plan) : Prop := ∀ e ∈ p.slots, e.2.partsFit = true

/-- The counts of every wall are those of the slot table (R9). -/
abbrev Plan.countsLaw (p : Plan) : Prop :=
  ∀ w < Config.wallCount, (p.wall w).slotCount = (p.slotsOf w).length
    ∧ (p.wall w).laidCount = ((p.slotsOf w).filter fun e => e.2.state.laid).length

/-- The parameters of every wall that is not Free meet R8, and every priority is 0 to 7 (R7, R18). -/
abbrev Plan.paramsLaw (p : Plan) : Prop :=
  ∀ w < Config.wallCount, (p.wall w).priority ≤ 7
    ∧ ((p.wall w).state ≠ .free → (p.wall w).params.inRange = true)

/-! ### Weather, options, authority, watches, ports -/

/-- The fields of the record lie in their ranges, and a stale record holds every gate Closed (R111, R120). -/
abbrev Conditions.lawful (c : Conditions) : Prop :=
  -40 ≤ c.temperature ∧ c.temperature ≤ 85 ∧ c.wind ≤ 250
    ∧ (c.stale = true → c.glue = .closed ∧ c.exposure = .closed ∧ c.stop = .closed)

/-- The record is stale while the clock is Unset or holds its largest value (R106, R113). -/
abbrev State.weatherLaw (s : State) : Prop :=
  s.conditions.lawful ∧ (s.clock = none ∨ s.clock = some 4294967295 → s.conditions.stale = true)

/-- Every option lies in its range and the three pair relations hold (R123). -/
abbrev Options.lawful (o : Options) : Prop :=
  (60 ≤ o.otRef ∧ o.otRef ≤ 3600) ∧ (0 ≤ o.slope ∧ o.slope ≤ 255)
    ∧ (-40 ≤ o.tGlueMin ∧ o.tGlueMin ≤ o.tGlueMax ∧ o.tGlueMax ≤ 85)
    ∧ (0 ≤ o.exposureOpen ∧ o.exposureOpen < o.exposureClose ∧ o.exposureClose ≤ 250)
    ∧ (0 ≤ o.stopOpen ∧ o.stopOpen < o.stopClose ∧ o.stopClose ≤ 250)
    ∧ (0 ≤ o.exposureHeight ∧ o.exposureHeight ≤ 100000) ∧ (0 ≤ o.autoClear ∧ o.autoClear ≤ 1)

/-- The counter lies between 0 and 5, and the level is Operator only while a code is stored (R149). -/
abbrev Authority.lawful (a : Authority) : Prop :=
  a.attempts ≤ Config.attemptsMax ∧ (a.level = .operator → a.code.isSome = true)

/-- A watch's count is at most 255, and it follows a state a watch can name (R157). -/
def Watch.lawful (w : Watch) : Bool :=
  w.count ≤ Config.watchCountMax && w.entered != .empty && w.entered != .planned

/-- Every watch record is lawful (R157). -/
abbrev Events.lawful (e : Events) : Prop := ∀ k < Config.watchCount, (e.watches[k]?.all Watch.lawful) = true

/-- Each cursor is a slot index (R15). -/
abbrev State.cursorLaw (s : State) : Prop :=
  s.portP.cursor < Config.slotCount ∧ s.portM.cursor < Config.slotCount

/-- The site clock does not pass its largest value (R105, R106). -/
abbrev State.clockRange (s : State) : Prop := ∀ t ∈ s.clock, t ≤ Config.maxTime

/-! ### What a judgement comes to (R27), said at once for all the slots a cause re-judges -/

/-- The record a judgement leaves: Planned or Ready as the conditions of R26 say; any other state stays (R27). -/
def Plan.judged (p : Plan) (station : Option Nat) (x : Slot) : Slot :=
  if x.state = .planned ∨ x.state = .ready then
    { x with state := if p.readyConditions station x then .ready else .planned }
  else x

/-- A judgement turns the record from Planned to Ready. -/
def Plan.turnsReady (p : Plan) (station : Option Nat) (x : Slot) : Bool :=
  x.state == .planned && p.readyConditions station x

/-- The plan after the slots of `ids` are judged, each against the plan as it stands before (R27: the order does not
matter). -/
def Plan.rejudged (p : Plan) (station : Option Nat) (ids : List Nat) : Plan :=
  { p with slots := p.slots.map fun e => (e.1, if ids.contains e.1 then p.judged station e.2 else e.2) }

/-- The slots of `ids` that a judgement turns Ready, in ascending index order (R27, R160). -/
def Plan.newlyReady (p : Plan) (station : Option Nat) (ids : List Nat) : SlotTable :=
  p.slots.filter fun e => ids.contains e.1 && p.turnsReady station e.2

/-- Several slots are presented to the watches one at a time (R160). -/
def Events.presentAll (l : SlotTable) (st : SlotState) (time : Option Nat) (e : Events) : Events :=
  l.foldl (fun e d => e.present d.1 d.2 st time) e

/-- A cause that re-judges the slots of `ids`, whole: the slots, the watches their entries match, and the queue by its
law (R27, R38, R160). -/
def State.afterJudging (ids : List Nat) (s : State) : State :=
  { s with
    plan := s.plan.rejudged s.dispatcher.station ids
    dispatcher := { s.dispatcher with queue := (s.plan.rejudged s.dispatcher.station ids).queueByLaw }
    events := s.events.presentAll (s.plan.newlyReady s.dispatcher.station ids) .ready s.clock }

/-! ### Taking a command (R150, R172) -/

/-- A port takes a command of a class: port P while no sweep or audit runs and the Authority Unit admits the class
(tests 3 and 4 of R172); port M always. -/
def State.takes (s : State) : Port → CommandClass → Prop
  | .M, _ => True
  | .P, .read => s.engine = .idle
  | .P, .operational => s.engine = .idle ∧ (s.authority.level = .engineer ∨ s.authority.epl = .operator)
  | .P, .planShaping => s.engine = .idle ∧ s.authority.level = .engineer
  | .P, .authority => s.engine = .idle

/-- The code and the class of a port P command (the table of R150; section 10.5). Abort stands apart: it is taken while
port P is Busy (R147). -/
def planPortRow : Instr → Option (Byte × CommandClass)
  | .slotRead .P _ => some (0x01, .read)
  | .wallRead .P _ => some (0x02, .read)
  | .typeRead .P _ => some (0x03, .read)
  | .queueRead .P _ => some (0x04, .read)
  | .lineRead .P => some (0x05, .read)
  | .readTime .P => some (0x06, .read)
  | .conditionsRead .P => some (0x07, .read)
  | .optionRead .P => some (0x08, .read)
  | .status .P => some (0x09, .read)
  | .eventFetch .P => some (0x0A, .read)
  | .eventMask .P _ => some (0x0B, .operational)
  | .authorityRead => some (0x0C, .read)
  | .watchRead => some (0x0D, .read)
  | .watchSet _ => some (0x0E, .operational)
  | .audit _ => some (0x0F, .read)
  | .sweepWithhold _ _ | .sweepFree _ => some (0x10, .operational)
  | .sweepShift _ | .sweepRetype _ => some (0x10, .planShaping)
  | .hold => some (0x12, .operational)
  | .release => some (0x13, .operational)
  | .wallDefine _ _ _ => some (0x20, .planShaping)
  | .wallSet _ _ => some (0x21, .planShaping)
  | .wallOpen _ => some (0x22, .operational)
  | .pause _ => some (0x23, .operational)
  | .resume _ => some (0x24, .operational)
  | .close _ => some (0x25, .operational)
  | .wallFree _ => some (0x26, .planShaping)
  | .priority _ _ => some (0x27, .operational)
  | .typeDefine _ _ => some (0x28, .planShaping)
  | .slotLoad _ => some (0x30, .planShaping)
  | .slotRestore _ _ _ => some (0x31, .planShaping)
  | .slotAmend _ _ _ => some (0x32, .planShaping)
  | .slotDelete _ => some (0x33, .planShaping)
  | .withhold _ => some (0x34, .operational)
  | .free _ => some (0x35, .operational)
  | .clear _ => some (0x36, .planShaping)
  | .accept _ => some (0x37, .planShaping)
  | .lift _ => some (0x38, .planShaping)
  | .setTime _ => some (0x39, .planShaping)
  | .setOption _ _ => some (0x3A, .planShaping)
  | .setEpl _ => some (0x3B, .planShaping)
  | .unlock _ => some (0x40, .authority)
  | .lock => some (0x41, .authority)
  | .setCode _ _ => some (0x42, .authority)
  | .freeze => some (0x43, .authority)
  | .slotRead .M _ | .wallRead .M _ | .typeRead .M _ | .queueRead .M _ | .lineRead .M | .readTime .M
  | .conditionsRead .M | .optionRead .M | .status .M | .eventFetch .M | .eventMask .M _ | .abort | .station _ | .claim
  | .cutDone _ | .glued _ | .targetRequest _ | .laid _ _ | .reject _ _ | .binStatus _ | .conditions _ _ | .sweepStep
  | .auditStep | .clockTick | .adhesiveExpiry _ | .staleness | .frameGapTimeout _ | .frameCheckFail _ _
  | .unknownCode _ _ _ | .endingResponseSend | .estopChange _ | .lineReset | .powerOnReset
  | .frameLengthOutOfRange _ _ => none

/-- The port, the code, the class and the slot address of a command that carries one (R13, R16, R129 to R136). -/
def addressedRow : Instr → Option (Port × Byte × CommandClass × SlotAddress)
  | .slotRead p a => some (p, 0x01, .read, a)
  | .sweepWithhold _ f => some (.P, 0x10, .operational, f.start)
  | .sweepFree f => some (.P, 0x10, .operational, f.start)
  | .sweepShift f => some (.P, 0x10, .planShaping, f.start)
  | .sweepRetype f => some (.P, 0x10, .planShaping, f.start)
  | .slotRestore a _ _ => some (.P, 0x31, .planShaping, a)
  | .slotAmend a _ _ => some (.P, 0x32, .planShaping, a)
  | .slotDelete a => some (.P, 0x33, .planShaping, a)
  | .withhold a => some (.P, 0x34, .operational, a)
  | .free a => some (.P, 0x35, .operational, a)
  | .clear a => some (.P, 0x36, .planShaping, a)
  | .accept a => some (.P, 0x37, .planShaping, a)
  | .lift a => some (.P, 0x38, .planShaping, a)
  | .wallRead _ _ | .typeRead _ _ | .queueRead _ _ | .lineRead _ | .readTime _ | .conditionsRead _ | .optionRead _
  | .status _ | .eventFetch _ | .eventMask _ _ | .authorityRead | .watchRead | .watchSet _ | .audit _ | .abort | .hold
  | .release | .unlock _ | .lock | .setCode _ _ | .freeze | .wallDefine _ _ _ | .wallSet _ _ | .wallOpen _ | .pause _
  | .resume _ | .priority _ _ | .close _ | .wallFree _ | .typeDefine _ _ | .slotLoad _ | .setTime _ | .setOption _ _
  | .setEpl _ | .station _ | .claim | .cutDone _ | .glued _ | .targetRequest _ | .laid _ _ | .reject _ _ | .binStatus _
  | .conditions _ _ | .sweepStep | .auditStep | .clockTick | .adhesiveExpiry _ | .staleness | .frameGapTimeout _
  | .frameCheckFail _ _ | .unknownCode _ _ _ | .endingResponseSend | .estopChange _ | .lineReset | .powerOnReset
  | .frameLengthOutOfRange _ _ => none

/-- A receiver takes bytes one after another: the receiver after them and the rows they complete. -/
def receiveAll (p : Port) (r : Receiver) (bytes : List Byte) : Receiver × List Instr :=
  bytes.foldl (fun a b => ((receiveByte p a.1 b).1, a.2 ++ (receiveByte p a.1 b).2)) (r, [])

/-! ### Where a slot stands -/

/-- The seven conditions of R26 on a record, as the table gives them, but for condition 1. -/
def Plan.readyUnless (p : Plan) (station : Option Nat) (x : Slot) : Prop :=
  x.withheld = false
    ∧ (p.wall x.wall).state = .opened
    ∧ (∃ n, station = some n ∧ x.reach.getLsbD n = true)
    ∧ (∀ j ∈ x.supports, p.stateOf j = .set)
    ∧ (∀ j, x.right = some j → p.stateOf j ≠ .claimed)
    ∧ (∀ j, x.right = some j → (p.stateOf j).laid = true → ∀ k, x.left = some k → (p.stateOf k).laid = true)

/-- The dispatch key of one slot is smaller than that of another: the parts of R37 compared in turn. -/
def Plan.keyBefore (p : Plan) (i : Nat) (x : Slot) (j : Nat) (y : Slot) : Prop :=
  (p.wall y.wall).priority < (p.wall x.wall).priority
    ∨ ((p.wall y.wall).priority = (p.wall x.wall).priority
      ∧ (x.wall < y.wall
        ∨ (x.wall = y.wall
          ∧ (x.course < y.course
            ∨ (x.course = y.course
              ∧ (x.designLeft < y.designLeft ∨ (x.designLeft = y.designLeft ∧ i < j)))))))

/-! ### Claims and reports -/

/-- None of the conditions of R48 holds: a Claim goes on to scan the queue. -/
def State.claimGoesOn (s : State) : Prop :=
  s.clock ≠ none ∧ s.dispatcher.station ≠ none ∧ s.estop = false ∧ s.dispatcher.hold = false
    ∧ s.conditions.stop = .opened ∧ s.conditions.glue = .opened ∧ s.line.length < 8 ∧ s.dispatcher.queue ≠ []

/-- An entry is eligible (R49): the bin of its type is available, and under a Closed exposure gate its design top does
not exceed its wall's base by more than the exposure height. -/
def State.mayBeTaken (s : State) (x : Slot) : Prop :=
  s.dispatcher.binEmpty.getLsbD (s.plan.brickType x.type).bin = false
    ∧ (s.conditions.exposure = .closed →
      (((x.course + 1) * (s.plan.wall x.wall).params.courseHeight : Nat) : Int) ≤ s.options.exposureHeight)

/-- The line with one carrier's record changed. -/
def lineWith (line : List Carrier) (tag : Nat) (f : Carrier → Carrier) : List Carrier :=
  line.map fun d => if d.tag = tag then f d else d

/-- The line without one carrier; the others keep their order (R46). -/
def lineWithout (line : List Carrier) (tag : Nat) : List Carrier := line.filter fun d => d.tag ≠ tag

/-- A figure held in a band: the lower bound below it, the upper bound above it, else the figure (R74, R77). -/
def heldInBand (lo hi x : Nat) : Nat := if x < lo then lo else if hi < x then hi else x

/-- A brick is laid (R58, R59, R92, R93), before any slot is re-judged: the carrier has left, the slot has lost its tag,
gained its as-laid part and entered its state, the wall's laid count has risen, and the entry has been presented. -/
def State.afterLaying (c : Carrier) (x : Slot) (st : SlotState) (a : AsLaid) (late : Bool) (s : State) : State :=
  { s with
    line := lineWithout s.line c.tag
    plan := (s.plan.modifyWall x.wall fun w => { w with laidCount := w.laidCount + 1 }).modifySlot c.slot fun y =>
      { y with state := st, tag := none, asLaid := some a, late := late }
    events := s.events.present c.slot x st s.clock }

/-- The completion test has been made on a wall (R95, R96): where every non-Empty slot of it is Set, its complete flag is
set and WallComplete latches. -/
def State.afterCompletion (w : Nat) (s : State) : State :=
  if ∀ e ∈ s.plan.slots, e.2.wall = w → e.2.state = .set then
    { s with
      plan := s.plan.modifyWall w fun x => { x with complete := true }
      events := { s.events with wallComplete := true } }
  else s

/-- The Suspect source has latched (R96). -/
def State.afterSuspect (s : State) : State := { s with events := { s.events with suspect := true } }

/-! ### Weather, options and walls -/

/-- One of the three gates is Open. -/
def Conditions.someGateOpen (c : Conditions) : Bool :=
  c.glue == .opened || c.exposure == .opened || c.stop == .opened

/-- The value of an option by its code (R123). -/
def Options.valueOf (o : Options) : Nat → Int
  | 1 => o.otRef
  | 2 => o.slope
  | 3 => o.tGlueMin
  | 4 => o.tGlueMax
  | 5 => o.exposureClose
  | 6 => o.exposureOpen
  | 7 => o.stopClose
  | 8 => o.stopOpen
  | 9 => o.exposureHeight
  | 10 => o.autoClear
  | _ => 0

/-- The codes and ranges of the ten options (R123). -/
def optionTable : List (Nat × Int × Int) :=
  [(1, 60, 3600), (2, 0, 255), (3, -40, 85), (4, -40, 85), (5, 0, 250), (6, 0, 250), (7, 0, 250), (8, 0, 250),
   (9, 0, 100000), (10, 0, 1)]

/-- The three pair relations of R123. -/
def Options.pairsHold (o : Options) : Prop :=
  o.exposureOpen < o.exposureClose ∧ o.stopOpen < o.stopClose ∧ o.tGlueMin ≤ o.tGlueMax

/-- The ranges and relations of R8, as the table gives them. -/
def WallParams.meetsRanges (p : WallParams) : Prop :=
  p.base ≤ 100000 ∧ (500 ≤ p.courseHeight ∧ p.courseHeight ≤ 5000) ∧ (1 ≤ p.courseCount ∧ p.courseCount ≤ 64)
    ∧ (p.bedMin ≤ 200 ∧ p.bedMax ≤ 200) ∧ (p.jointMin ≤ 200 ∧ p.jointNominal ≤ 200 ∧ p.jointMax ≤ 200)
    ∧ p.driftMax ≤ 500 ∧ (1 ≤ p.heightTol ∧ p.heightTol ≤ 500) ∧ (1 ≤ p.positionTol ∧ p.positionTol ≤ 500)
    ∧ p.bedMin ≤ p.bedMax ∧ p.jointMin ≤ p.jointNominal ∧ p.jointNominal + 4 ≤ p.jointMax

/-- The fields of a wall as a body carries them. -/
def WallParams.asCarried (f : WallFields) : WallParams :=
  ⟨f.base.toNat, f.courseHeight.toNat, f.courseCount.toNat, f.bedMin.toNat, f.bedMax.toNat, f.jointMin.toNat,
    f.jointNominal.toNat, f.jointMax.toNat, f.driftMax.toNat, f.heightTol.toNat, f.positionTol.toNat⟩

/-- The plan of a state is replaced and the queue brought to its law. -/
def State.replan (p : Plan) (s : State) : State :=
  { s with plan := p, dispatcher := { s.dispatcher with queue := p.queueByLaw } }

/-! ### Plan editing -/

/-- The record that plan fields give, before anything else is in it: state Planned, flags clear, no optional part (R2,
R4, R128). -/
def recordOf (f : PlanFields) : Slot where
  state := .planned
  wall := f.wall.toNat
  course := f.course.toNat
  designLeft := f.drawn.designLeft.toNat
  type := f.drawn.type.toNat
  planCut := if f.drawn.planCut.toNat = 0 then none else some f.drawn.planCut.toNat
  supports := [f.drawn.support0.toNat, f.drawn.support1.toNat, f.drawn.support2.toNat].take f.drawn.supportCount.toNat
  left := if f.drawn.left.toNat = 65535 then none else some f.drawn.left.toNat
  right := if f.drawn.right.toNat = 65535 then none else some f.drawn.right.toNat
  reach := f.drawn.reach
  withheld := false
  openLeft := false
  corrected := false
  late := false
  tag := none
  target := none
  asLaid := none
  faultReason := none

/-- A plan cut, if present, is a multiple of 5 from a shortest to a longest length. -/
def Slot.cutBetween (x : Slot) (lo hi : Nat) : Prop := ∀ n, x.planCut = some n → n % 5 = 0 ∧ lo ≤ n ∧ n ≤ hi

/-- The links of a record, carried with a number of supports, lie in their ranges: at most three supports, distinct,
and every index 0 to 4095. -/
def Slot.linksLawful (x : Slot) (count : Nat) : Prop :=
  count ≤ 3 ∧ x.supports.Nodup ∧ (∀ j ∈ x.supports, j ≤ 4095) ∧ (∀ j, x.left = some j → j ≤ 4095)
    ∧ ∀ j, x.right = some j → j ≤ 4095

/-- The ranges Slot Load and Slot Amend judge (R127 test 5, R131 test 6). -/
def Plan.drawnLawful (p : Plan) (x : Slot) (count : Nat) : Prop :=
  x.course < (p.wall x.wall).params.courseCount ∧ x.designLeft ≤ 200000 ∧ x.type ≤ 63
    ∧ (p.brickType x.type).defined = true
    ∧ x.cutBetween (p.brickType x.type).minCut (p.brickType x.type).length ∧ x.linksLawful count

/-- The ranges Slot Restore judges (R129 test 5). -/
def Plan.restoredLawful (p : Plan) (x : Slot) (count : Nat) (a : AsLaid) : Prop :=
  x.course ≤ 63 ∧ x.designLeft ≤ 200000 ∧ x.type ≤ 63 ∧ x.linksLawful count
    ∧ (a.left ≤ 200000 ∧ a.right ≤ 200000 ∧ a.topLeft ≤ 500000 ∧ a.topRight ≤ 500000)
    ∧ ((p.brickType x.type).defined = true → x.cutBetween (p.brickType x.type).minCut (p.brickType x.type).length)
    ∧ ((p.brickType x.type).defined = false → x.cutBetween 100 6000)

/-- One load record of a Slot Load: its result code and the state it leaves (R127, R128). -/
def State.takesRecord (s : State) (r : LoadRecord) (code : Status) (t : State) : Prop :=
  (4095 < r.index.toNat → code = .badValue ∧ t = s)
    ∧ (r.index.toNat ≤ 4095 →
      (s.plan.slot? r.index.toNat ≠ none → code = .full ∧ t = s)
      ∧ (s.plan.slot? r.index.toNat = none →
        (31 < r.plan.wall.toNat → code = .badValue ∧ t = s)
        ∧ (r.plan.wall.toNat ≤ 31 →
          ((s.plan.wall r.plan.wall.toNat).state ≠ .draft → code = .badState ∧ t = s)
          ∧ ((s.plan.wall r.plan.wall.toNat).state = .draft →
            (¬ s.plan.drawnLawful (recordOf r.plan) r.plan.drawn.supportCount.toNat → code = .badValue ∧ t = s)
            ∧ (s.plan.drawnLawful (recordOf r.plan) r.plan.drawn.supportCount.toNat →
              code = .ok ∧ t = s.replan
                ((s.plan.putSlot r.index.toNat (recordOf r.plan)).modifyWall r.plan.wall.toNat fun w =>
                  { w with slotCount := w.slotCount + 1, audited := false }))))))

/-- The records of a frame, one after another. -/
def State.takesRecords : State → List LoadRecord → List Status → State → Prop
  | s, [], [], t => t = s
  | s, r :: rs, c :: cs, t => ∃ u, s.takesRecord r c u ∧ State.takesRecords u rs cs t
  | _, [], _ :: _, _ => False
  | _, _ :: _, [], _ => False

/-- The slot as it would stand after an amendment of the fields a field set names (R131). -/
def Slot.amendedBy (x : Slot) (bits : Byte) (f : DrawnFields) : Slot :=
  let y : Slot := recordOf ⟨0, 0, f⟩
  { x with
    designLeft := if bits.getLsbD 0 then y.designLeft else x.designLeft
    type := if bits.getLsbD 1 then y.type else x.type
    planCut := if bits.getLsbD 2 then y.planCut else x.planCut
    supports := if bits.getLsbD 3 then y.supports else x.supports
    left := if bits.getLsbD 4 then y.left else x.left
    right := if bits.getLsbD 5 then y.right else x.right
    reach := if bits.getLsbD 6 then y.reach else x.reach }

/-- A slot's fields have been edited, the audited flag of its wall cleared where one differs, and the slot re-judged
(R132, R140). -/
def State.afterEdit (i : Nat) (x y : Slot) (s : State) : State :=
  ({ s with plan := (s.plan.modifySlot i fun _ => y).modifyWall x.wall fun w =>
    { w with audited := w.audited && decide (y = x) } } : State).afterJudging [i]

/-- A sweep's step has changed a field of a slot: the audited flag of its wall is clear; a Ready slot has been re-judged,
and a slot of another state keeps its state (R140). -/
def State.afterSweepChange (i : Nat) (x y : Slot) (s : State) : State :=
  if x.state = .ready then s.afterEdit i x y
  else { s with plan := (s.plan.modifySlot i fun _ => y).modifyWall x.wall fun w => { w with audited := false } }

/-- The withheld flag of a slot has taken a value and the slot has been re-judged; a laid slot keeps its flag, and a flag
that has the value already changes nothing (R134). -/
def State.afterWithheld (i : Nat) (x : Slot) (flag : Bool) (s : State) : State :=
  if x.state.laid = true ∨ x.withheld = flag then s
  else ({ s with plan := s.plan.modifySlot i fun _ => { x with withheld := flag } } : State).afterJudging [i]

/-! ### Responses in their order (R174) -/

/-- The responses of a port in the order in which they go out, but for an answer to the frame being received: those sent,
and those due. -/
def PortState.inOrder (x : PortState) : List Response := x.sent ++ x.waiting.toList ++ x.behind.toList

/-- A response of the operation has fallen due: sent last of all where the port receives no frame, and held behind the
answer to the frame being received where it does (R174). -/
def State.endingDue (r : Response) (s : State) : State :=
  { s with portP :=
    if s.portP.receiver = .hunting then { s.portP with sent := s.portP.inOrder ++ [r], waiting := none, behind := none }
    else if s.portP.behind = none then { s.portP with behind := some r }
    else { s.portP with
      sent := s.portP.sent ++ s.portP.waiting.toList
      waiting := s.portP.behind
      behind := some r } }

/-! ### Sweeps and audits -/

/-- A sweep has ended: its context is gone and its response is due (R141). -/
def State.sweepEnded (c : SweepContext) (r : SweepEnd) (st : Status) (s : State) : State :=
  ({ s with engine := .idle } : State).endingDue ⟨0x10, st, .sweepEnd r c.last c.remaining⟩

/-- A slot of a sweep has been processed (R138 step 6). -/
def State.sweepProcessed (c : SweepContext) (i : Nat) (s : State) : State :=
  { s with
    engine := .sweep { c with
      last := some i
      index := if c.direction = .up then (i : Int) + 1 else (i : Int) - 1
      remaining := c.remaining - 1 }
    portP := { s.portP with cursor := i } }

/-- A sweep step comes to its operation on a slot: tests 1 to 4 of R138 are passed. -/
def State.sweepReaches (s : State) (c : SweepContext) (i : Nat) : Prop :=
  s.engine = .sweep c ∧ c.abortPending = false ∧ c.remaining ≠ 0 ∧ c.index = (i : Int) ∧ i ≤ 4095
    ∧ (c.condition = .always ∨ c.condition = .whileIn (s.plan.stateOf i)
      ∨ ∃ st, c.condition = .untilIn st ∧ s.plan.stateOf i ≠ st)

/-- An audit has ended: its context is gone and its response is due (R145). -/
def State.auditEnded (st : Status) (b : Body) (s : State) : State :=
  ({ s with engine := .idle } : State).endingDue ⟨0x0F, st, b⟩

/-- Some position lies in the spans of both slots (R144). -/
def Plan.spansMeet (p : Plan) (x y : Slot) : Prop :=
  ∃ n, (x.designLeft ≤ n ∧ n < x.designLeft + p.fullLength x) ∧ y.designLeft ≤ n ∧ n < y.designLeft + p.fullLength y

/-- What makes a slot fail a check of an audit (the table of R144). -/
def Plan.failsCheck (p : Plan) (i : Nat) (x : Slot) : AuditFailure → Prop
  | .typeUndefined => (p.brickType x.type).defined = false
  | .courseRange => (p.wall x.wall).params.courseCount ≤ x.course
  | .courseZeroSupport => x.course = 0 ∧ x.supports ≠ []
  | .supportMissing => 0 < x.course ∧ x.supports = []
  | .supportOtherWall => ∃ j ∈ x.supports, ∀ y, p.slot? j = some y → y.wall ≠ x.wall
  | .supportCourse => ∃ j ∈ x.supports, ∃ y, p.slot? j = some y ∧ y.course + 1 ≠ x.course
  | .supportNoOverlap => ∃ j ∈ x.supports, ∃ y, p.slot? j = some y ∧ ¬ p.spansMeet y x
  | .courseOverlap => ∃ j y, j ≠ i ∧ p.slot? j = some y ∧ y.wall = x.wall ∧ y.course = x.course ∧ p.spansMeet y x
  | .neighbourLink =>
    (∃ j, x.left = some j ∧ ¬ ∃ y, p.slot? j = some y ∧ y.wall = x.wall ∧ y.course = x.course
        ∧ y.designLeft < x.designLeft ∧ y.right = some i)
      ∨ ∃ j, x.right = some j ∧ ¬ ∃ y, p.slot? j = some y ∧ y.wall = x.wall ∧ y.course = x.course
        ∧ x.designLeft < y.designLeft ∧ y.left = some i
  | .reachEmpty => x.reach = 0#8

/-- The failure codes in the order of their checks (R144). -/
def auditOrder : List AuditFailure :=
  [.typeUndefined, .courseRange, .courseZeroSupport, .supportMissing, .supportOtherWall, .supportCourse,
   .supportNoOverlap, .courseOverlap, .neighbourLink, .reachEmpty]

/-! ### Resets -/

/-- The front-to-tail records of the slots whose carriers are Faulted, as they enter Fault at a line reset (R69). -/
def State.faultedSlots (s : State) : List (Nat × Slot) :=
  s.line.filterMap fun c => if c.stage = .faulted then (s.plan.slot? c.slot).map fun x => (c.slot, x) else none

/-! ### The whole -/

/-- The laws that hold together: the slot table's form, the queue law, the boom line law with the facts about
carriers it needs, and where slots may stand. -/
structure State.Consistent (s : State) : Prop where
  table : tableWf s.plan.slots
  queue : s.queueLaw
  line : s.lineLaw
  clock : s.clockLaw
  target : s.targetLaw
  walls : s.plan.wallLaw

/-- A step does not stop the machine. -/
def Completes (r : Host.Outcome State Fault Refusal) : Prop := ∃ t, r = .next t

end Sys2Proof.Machine
end

