-- ==== Sys2Proof/WellFormed.lean ====
section
/-! DEFINITION. What a term must meet to be an instance of its row. Operands are carried fields, so a value out
of a rule's range is still a command (the part answers it); what is checked here is what no frame and no event
of the row can be. -/

namespace Sys2Proof

/-- A term is an instance of its row. -/
def Instr.wellFormed : Instr → Bool
  | .slotRead _ _ => true
  | .wallRead _ _ => true
  | .typeRead _ _ => true
  | .queueRead _ _ => true
  | .lineRead _ => true
  | .readTime _ => true
  | .conditionsRead _ => true
  | .optionRead _ => true
  | .status _ => true
  | .eventFetch _ => true
  | .eventMask .P _ => true
  -- the body of Event Mask is one byte on port M (R179)
  | .eventMask .M m => decide (m.toNat < 256)
  | .authorityRead => true
  | .watchRead => true
  | .watchSet _ => true
  | .audit _ => true
  -- operation bytes 1 to 3 name the other three Sweep rows (section 10.5)
  | .sweepWithhold op _ => decide (op ≠ 1#8 ∧ op ≠ 2#8 ∧ op ≠ 3#8)
  | .sweepFree _ => true
  | .sweepShift _ => true
  | .sweepRetype _ => true
  | .abort => true
  | .hold => true
  | .release => true
  | .unlock _ => true
  | .lock => true
  | .setCode _ _ => true
  | .freeze => true
  | .wallDefine _ _ _ => true
  | .wallSet _ _ => true
  | .wallOpen _ => true
  | .pause _ => true
  | .resume _ => true
  | .priority _ _ => true
  | .close _ => true
  | .wallFree _ => true
  | .typeDefine _ _ => true
  -- one to eight records (R127)
  | .slotLoad rs => decide (1 ≤ rs.length ∧ rs.length ≤ 8)
  | .slotRestore _ _ _ => true
  | .slotAmend _ _ _ => true
  | .slotDelete _ => true
  | .withhold _ => true
  | .free _ => true
  | .clear _ => true
  | .accept _ => true
  | .lift _ => true
  | .setTime _ => true
  | .setOption _ _ => true
  | .setEpl _ => true
  | .station _ => true
  | .claim => true
  | .cutDone _ => true
  | .glued _ => true
  | .targetRequest _ => true
  | .laid _ _ => true
  | .reject _ _ => true
  | .binStatus _ => true
  | .conditions _ _ => true
  | .sweepStep => true
  | .auditStep => true
  | .clockTick => true
  -- a tag is 0 to 7 (R46)
  | .adhesiveExpiry tag => decide (tag < Config.lineCapacity)
  | .staleness => true
  | .frameGapTimeout _ => true
  -- a complete frame whose check does not match (R171)
  | .frameCheckFail _ frame => frameComplete frame && lengthTaken (byteAt frame 0) && !checkMatches frame
  -- a frame that is no command of the port (R172); code and body are at most 250 bytes (R170)
  | .unknownCode p code body => !isCommand p code body.length && decide (body.length < 250)
  | .endingResponseSend => true
  | .estopChange _ => true
  | .lineReset => true
  | .powerOnReset => true
  -- a length of 0 or above 250 (R170)
  | .frameLengthOutOfRange _ length => !lengthTaken length

end Sys2Proof
end

