-- ==== Sys2Proof/Certificates/Slice0/Obligations.lean ====
section
/-! DEFINITION. What is claimed of the model: one proposition for each obligation of OBLIGATIONS.json, in its order.
The vocabulary of the statements is that of the model and of Safety.lean. -/

open Sys2Proof Sys2Proof.Machine

/-! ### Steps and frames (spec/10) -/

/-- A step takes the command at the front of the queue; with none waiting it receives the oldest input, and with
neither it idles. Assumptions 1 and 3 (DESIGN CHOICE). -/
def Obligations.StepTakesTheFrontCommand : Prop :=
  (∀ (c : Instr) (s : State), step { s with pending := c :: s.pending } = exec c s)
    ∧ (∀ (s : State) (p : Port) (x : LinkInput) (rest : List (Port × LinkInput)),
      s.pending = [] → s.inputs = (p, x) :: rest →
        step s = .next (({ s with
          inputs := rest
          pending := (receive p (s.port p).receiver x).2 } : State).setReceiver p (receive p (s.port p).receiver x).1))
    ∧ ∀ s : State, s.pending = [] → s.inputs = [] → step s = .next s

/-- The frame of every well-formed command, received byte by byte after any bytes that start no frame, is taken as that
command (R170 to R173, R176 to R179, section 10.5). A Sweep whose operation byte names no operation comes back as
SWEEP_WITHHOLD and a frame of a wrong size as UNKNOWN_CODE: assumptions 9 and 10 (DESIGN CHOICE). -/
def Obligations.FramesComeBackAsTheirCommands : Prop :=
  ∀ (c : Instr) (p : Port) (code : Byte) (body noise : List Byte),
    c.wellFormed = true → encodeCommand c = some (p, code, body) → 0xA5#8 ∉ noise →
      receiveAll p .hunting (noise ++ 0xA5#8 :: frameOf code body) = (.hunting, [c])

/-- Frames that are not taken: a length out of range, a gap and a check that fails discard the frame unanswered; an
unknown code and a wrong body size are answered Unknown and Malformed, Busy or not; and an ending response that waits is
sent once the receiver hunts. A port's responses go out in the order in which they fall due, but that an ending response
that falls due while a frame is received follows the answer to that frame; none is lost or overtaken otherwise (R170 to
R172, R174). Where no ending response can be sent, the event does not occur (assumption 2, DESIGN CHOICE), and what is
sent stands in `sent` (assumption 5, DESIGN CHOICE); a wrong body size is carried by UNKNOWN_CODE (assumption 10, DESIGN
CHOICE), and Malformed is a status byte alone with the code of Unlock too (assumption 26, DEDUCED). -/
def Obligations.FramesThatAreNotTaken : Prop :=
  (∀ (p : Port) (frame : List Byte) (s : State),
      frameComplete frame = true → lengthTaken (byteAt frame 0) = true → checkMatches frame = false →
        receiveAll p .hunting (0xA5#8 :: frame) = (.hunting, [.frameCheckFail p frame])
          ∧ exec (.frameCheckFail p frame) s = .next (s.discardFrame p))
    ∧ (∀ (p : Port) (n : Byte) (s : State), n.toNat = 0 ∨ 250 < n.toNat →
        receiveAll p .hunting [0xA5#8, n] = (.hunting, [.frameLengthOutOfRange p n])
          ∧ exec (.frameLengthOutOfRange p n) s = .next (s.discardFrame p))
    ∧ (∀ (p : Port) (bytes : List Byte) (s : State),
        receive p (.collecting bytes) .gap = (.collecting bytes, [.frameGapTimeout p])
          ∧ receive p .hunting .gap = (.hunting, [])
          ∧ ((s.port p).receiver = .hunting → exec (.frameGapTimeout p) s = .next s)
          ∧ ((s.port p).receiver ≠ .hunting → exec (.frameGapTimeout p) s = .next (s.discardFrame p)))
    ∧ (∀ (p : Port) (code : Byte) (body : List Byte) (s : State), body.length < 250 →
        (bodySizes p code = none → exec (.unknownCode p code body) s = .next (s.refuse p code .unknown))
          ∧ ∀ sizes, bodySizes p code = some sizes → body.length ∉ sizes →
            exec (.unknownCode p code body) s = .next (s.refuse p code .malformed))
    ∧ (∀ s : State,
        (∀ r, s.portP.waiting = some r → s.portP.receiver = .hunting →
          exec .endingResponseSend s
            = .next { s with portP := { s.portP with sent := s.portP.sent ++ [r], waiting := none } })
          ∧ (s.portP.waiting = none ∨ s.portP.receiver ≠ .hunting → exec .endingResponseSend s = .next s))
    ∧ (∀ (p : Port) (s : State),
        s.discardFrame p = s.setPort p
            (if (s.port p).behind = none then { s.port p with receiver := .hunting }
            else { s.port p with
              receiver := .hunting
              sent := (s.port p).sent ++ (s.port p).waiting.toList
              waiting := (s.port p).behind
              behind := none })
          ∧ ∀ (code : Byte) (st : Status) (b : Body), s.reply p code st b = s.setPort p { s.port p with
              sent := (s.port p).sent ++ (s.port p).waiting.toList ++ [⟨code, st, b⟩]
              waiting := (s.port p).behind
              behind := none })
    ∧ ∀ (c : Instr) (s t : State) (p : Port), c ≠ .powerOnReset → exec c s = .next t →
        (s.port p).sent <+: (t.port p).sent
          ∧ ((t.port p).inOrder = (s.port p).inOrder
            ∨ (∃ r, (t.port p).inOrder = (s.port p).inOrder ++ [r])
            ∨ ∃ r, (t.port p).sent = (s.port p).sent ++ (s.port p).waiting.toList ++ [r]
              ∧ (t.port p).waiting = (s.port p).behind ∧ (t.port p).behind = none)

/-- While a sweep or an audit runs, every port P command but Abort is answered Busy; otherwise one whose class the
Authority Unit does not admit is answered Authority. Nothing else changes (R14, R150, R172, R174). -/
def Obligations.PlanPortAdmission : Prop :=
  ∀ (c : Instr) (code : Byte) (k : CommandClass) (s : State), planPortRow c = some (code, k) → c.wellFormed = true →
    (s.engine ≠ .idle → exec c s = .next (s.refuse .P code .busy))
      ∧ (s.engine = .idle → ¬ s.takes .P k → exec c s = .next (s.refuse .P code .authority))

/-! ### Slot addresses (spec/01 section 1.4) -/

/-- What a slot address resolves to, in each mode, and that nothing else resolves (R13, R176). -/
def Obligations.AddressResolution : Prop :=
  ∀ (s : State) (p : Port) (a : SlotAddress) (i : Nat), tableWf s.plan.slots →
    (s.resolve p a = some i ↔
      (a.mode = 1#8 ∧ i = a.byte1.toNat + 256 * a.byte2.toNat ∧ i ≤ 4095)
        ∨ (a.mode = 2#8 ∧ a.byte1.toNat ≤ 31 ∧ a.byte2.toNat ≤ 63
          ∧ ∃ x, s.plan.slot? i = some x ∧ x.wall = a.byte1.toNat ∧ x.course = a.byte2.toNat
            ∧ (s.plan.slots.filter fun e => e.2.wall = x.wall ∧ e.2.course = x.course
                ∧ (e.2.designLeft < x.designLeft ∨ (e.2.designLeft = x.designLeft ∧ e.1 < i))).length
              = a.byte3.toNat)
        ∨ (a.mode = 3#8 ∧ (i : Int) = ((s.port p).cursor : Int) + a.byte1.toInt ∧ i ≤ 4095))

/-- A command whose address does not resolve is refused with BadAddress and changes nothing; one whose address resolves
moves its port's cursor there, taken or refused; no other command but a sweep's step and power-on reset moves a cursor
(R14, R15). -/
def Obligations.AddressedCommandsMoveTheCursor : Prop :=
  (∀ (c : Instr) (p : Port) (code : Byte) (k : CommandClass) (a : SlotAddress) (s : State),
      addressedRow c = some (p, code, k, a) → s.takes p k →
        (s.resolve p a = none → exec c s = .next (s.refuse p code .badAddress))
          ∧ ∀ i, s.resolve p a = some i → ∃ t, exec c s = .next t ∧ (t.port p).cursor = i)
    ∧ (∀ (c : Instr) (p : Port) (code : Byte) (k : CommandClass) (a : SlotAddress) (s t : State),
        addressedRow c = some (p, code, k, a) → exec c s = .next t → ∀ q, q ≠ p → (t.port q).cursor = (s.port q).cursor)
    ∧ ∀ (c : Instr) (s t : State), addressedRow c = none → c ≠ .sweepStep → c ≠ .powerOnReset → exec c s = .next t →
        ∀ q, (t.port q).cursor = (s.port q).cursor

/-! ### Reading (sections 1.5, 2.4, 3.7, 6.1, 6.3, 6.5, 8.6 and R175) -/

/-- Slot Read, Wall Read and Type Read return one whole record as it stands (R16, R17). -/
def Obligations.ReadsOfThePlan : Prop :=
  ∀ (s : State) (p : Port), s.takes p .read →
    (∀ a i, s.resolve p a = some i →
        exec (.slotRead p a) s = .next ((s.setCursor p i).reply p 0x01 .ok (.slot i (s.plan.slot? i))))
      ∧ (∀ w : Byte,
          (w.toNat ≤ 31 → exec (.wallRead p w) s = .next (s.reply p 0x02 .ok (.wall (s.plan.wall w.toNat))))
            ∧ (31 < w.toNat → exec (.wallRead p w) s = .next (s.refuse p 0x02 .badAddress)))
      ∧ ∀ t : Byte,
          (t.toNat ≤ 63 → exec (.typeRead p t) s = .next (s.reply p 0x03 .ok (.brickType (s.plan.brickType t.toNat))))
            ∧ (63 < t.toNat → exec (.typeRead p t) s = .next (s.refuse p 0x03 .badAddress))

/-- Line Read, Read Time, Conditions Read, Option Read and Authority Read return what stands and change nothing
(R68, R108, R116, R125, R156). -/
def Obligations.PlainReads : Prop :=
  (∀ (s : State) (p : Port), s.takes p .read →
      exec (.lineRead p) s = .next (s.reply p 0x05 .ok (.line s.line))
        ∧ exec (.readTime p) s = .next (s.reply p 0x06 .ok (.time s.clock))
        ∧ exec (.conditionsRead p) s = .next (s.reply p 0x07 .ok (.conditions s.conditions))
        ∧ exec (.optionRead p) s = .next (s.reply p 0x08 .ok (.options s.options)))
    ∧ ∀ s : State, s.takes .P .read →
        exec .authorityRead s = .next (s.reply .P 0x0C .ok
          (.authority s.authority.level s.authority.attempts s.authority.frozen s.authority.epl s.authority.code.isSome))

/-- Queue Read returns the queue's length, the number of Ready slots and the front entries, at most 27, each in 9 bytes; a
count above 64 is refused (R42). -/
def Obligations.QueueReadAnswers : Prop :=
  (∀ e : QueueEntry, (queueEntryBytes e).length = 9) ∧ ∀ (s : State) (p : Port) (n : Byte), s.takes p .read →
    (64 < n.toNat → exec (.queueRead p n) s = .next (s.refuse p 0x04 .badValue))
      ∧ (n.toNat ≤ 64 → ∃ es : List QueueEntry,
          exec (.queueRead p n) s = .next (s.reply p 0x04 .ok (.queue s.dispatcher.queue.length
            (s.plan.slots.filter fun e => e.2.state = .ready).length es))
            ∧ (tableWf s.plan.slots → s.queueLaw →
              es.map QueueEntry.slot = s.dispatcher.queue.take (min (if n.toNat = 0 then 64 else n.toNat) 27)
                ∧ ∀ e ∈ es, ∃ x, s.plan.slot? e.slot = some x
                  ∧ e = ⟨e.slot, x.wall, x.course, x.designLeft, x.type⟩))

/-- Status reports the state byte by byte (R175). -/
def Obligations.StatusReportsTheState : Prop :=
  ∀ (s : State) (p : Port), s.takes p .read → ∃ b : StatusBody,
    exec (.status p) s = .next (s.reply p 0x09 .ok (.status b))
      ∧ Status.code .ok = 0
      ∧ (Body.status b).bytes
        = [if p = .P ∧ s.authority.level = .engineer then 1#8 else 0#8, if s.clock.isSome then 1#8 else 0#8]
          ++ wordBytes (BitVec.ofNat 32 (s.clock.getD 0))
          ++ [match s.dispatcher.station with
              | none => 0xFF#8
              | some n => BitVec.ofNat 8 n,
            if s.conditions.glue = .opened then 1#8 else 0#8,
            if s.conditions.exposure = .opened then 1#8 else 0#8,
            if s.conditions.stop = .opened then 1#8 else 0#8,
            if s.conditions.stale then 1#8 else 0#8,
            if s.dispatcher.hold then 1#8 else 0#8,
            if s.dispatcher.hold = true ∧ s.line = [] then 1#8 else 0#8,
            BitVec.ofNat 8 s.line.length,
            BitVec.ofNat 8 s.dispatcher.queue.length,
            if s.estop then 1#8 else 0#8,
            if s.engine ≠ .idle then 1#8 else 0#8]

/-! ### Watches, latches and attention lines (spec/09) -/

/-- Event Fetch returns the lowest vector code that is latched and unmasked and clears that latch alone; with none it
answers code 0 and nothing changes (R164). -/
def Obligations.EventFetchTakesTheLowestSource : Prop :=
  ∀ (s : State) (p : Port), s.takes p .read →
    ((∀ k : Nat, ¬ ((s.events.latches p)[k]? = some true ∧ (s.events.masks p)[k]? = some false)) →
        exec (.eventFetch p) s = .next (s.reply p 0x0A .ok (.event 0 (s.events.latches p) (s.events.masks p))))
      ∧ ∀ k : Nat, (s.events.latches p)[k]? = some true → (s.events.masks p)[k]? = some false →
        (∀ j < k, ¬ ((s.events.latches p)[j]? = some true ∧ (s.events.masks p)[j]? = some false)) →
          ∃ e : Events,
            exec (.eventFetch p) s
              = .next (({ s with events := e } : State).reply p 0x0A .ok (.event (k + 1) (e.latches p) (e.masks p)))
              ∧ e.latches p = (s.events.latches p).set k false
              ∧ (∀ q, q ≠ p → e.latches q = s.events.latches q)
              ∧ (∀ q, e.masks q = s.events.masks q)
              ∧ (e.watches.map fun w => { w with latched := false })
                = s.events.watches.map fun w => { w with latched := false }

/-- Event Mask replaces its port's masks whole and leaves every latch (R165), and a port's attention line is asserted
exactly while one of its sources is latched and unmasked (R163). -/
def Obligations.EventMaskAndAttention : Prop :=
  (∀ (s : State) (m : Half), s.takes .P .operational → ∃ e : Events,
      exec (.eventMask .P m) s
        = .next (({ s with events := e } : State).reply .P 0x0B .ok (.masks (e.masks .P) (s.events.latches .P)))
        ∧ e.masks .P = (List.range 11).map m.getLsbD
        ∧ e = { s.events with maskP := e.maskP })
    ∧ (∀ (s : State) (m : Half), ∃ e : Events,
      exec (.eventMask .M m) s
        = .next (({ s with events := e } : State).reply .M 0x0B .ok (.masks (e.masks .M) (s.events.latches .M)))
        ∧ e.masks .M = (List.range 3).map m.getLsbD
        ∧ e = { s.events with maskM := e.maskM })
    ∧ ∀ (s : State) (p : Port), s.attention p = true ↔
        ∃ k : Nat, (s.events.latches p)[k]? = some true ∧ (s.events.masks p)[k]? = some false

/-- Watch Set writes one record whole, its tests in order (R158). An enabled byte above 1 is
`FieldBytesOutOfTheirRanges`. -/
def Obligations.WatchSetWritesTheRecord : Prop :=
  ∀ (s : State) (f : WatchFields), s.takes .P .operational → f.enabled.toNat ≤ 1 →
    (7 < f.number.toNat → exec (.watchSet f) s = .next (s.refuse .P 0x0E .badAddress))
      ∧ (f.number.toNat ≤ 7 →
          (31 < f.wall.toNat ∧ f.wall ≠ 0xFF#8) ∨ (63 < f.course.toNat ∧ f.course ≠ 0xFF#8)
            ∨ f.state.toNat < 2 ∨ 7 < f.state.toNat ∨ 1 < f.mode.toNat →
          exec (.watchSet f) s = .next (s.refuse .P 0x0E .badValue))
      ∧ (f.number.toNat ≤ 7 → f.wall.toNat ≤ 31 ∨ f.wall = 0xFF#8 → f.course.toNat ≤ 63 ∨ f.course = 0xFF#8 →
          f.mode.toNat ≤ 1 → ∀ st : SlotState, st.code = f.state.toNat → st ≠ .empty → st ≠ .planned →
            ∃ w : Watch,
              w = { enabled := decide (f.enabled = 1#8)
                    wall := if f.wall = 0xFF#8 then none else some f.wall.toNat
                    course := if f.course = 0xFF#8 then none else some f.course.toNat
                    entered := st
                    mode := if f.mode = 1#8 then .every else .once
                    latched := false
                    count := 0
                    lastSlot := none
                    lastTime := none }
                ∧ exec (.watchSet f) s
                  = .next (({ s with events :=
                      { s.events with watches := s.events.watches.setIfInBounds f.number.toNat w } } : State).reply
                        .P 0x0E .ok (.watch w)))

/-- Watch Read returns all eight records as they stand; with the auto-clear option on it then clears their latches and
nothing else (R161). -/
def Obligations.WatchReadShowsAndClears : Prop :=
  ∀ s : State, s.takes .P .read →
    (s.options.autoClear ≠ 1 → exec .watchRead s = .next (s.reply .P 0x0D .ok (.watches s.events.watches)))
      ∧ (s.options.autoClear = 1 →
          exec .watchRead s = .next (({ s with events :=
            { s.events with watches := s.events.watches.map fun w => { w with latched := false } } } : State).reply
              .P 0x0D .ok (.watches s.events.watches)))

/-- A slot that enters a state is compared with every enabled watch, and each watch that fits is latched, counted and
stamped, a Once watch disabled (R159); a watch's fields are written by Watch Set alone, its count falls at no other
command, and no other command enables it (R157, R158). -/
def Obligations.WatchMatching : Prop :=
  (∀ (s : State) (i : Nat) (st : SlotState) (x : Slot) (f : Slot → Slot), s.events.lawful → s.plan.slot? i = some x →
      (s.enter i st f).plan.slot? i = some { f x with state := st }
        ∧ ∀ (k : Nat) (w : Watch), s.events.watches[k]? = some w →
          (s.enter i st f).events.watches[k]? = some
            (if w.enabled = true ∧ (w.wall = none ∨ w.wall = some (f x).wall)
                ∧ (w.course = none ∨ w.course = some (f x).course) ∧ w.entered = st then
              { w with
                enabled := decide (w.mode = .every)
                latched := true
                count := min 255 (w.count + 1)
                lastSlot := some i
                lastTime := s.clock }
            else w))
    ∧ ∀ (c : Instr) (s t : State), (∀ f, c ≠ .watchSet f) → c ≠ .powerOnReset → exec c s = .next t →
        ∀ (k : Nat) (w v : Watch), s.events.watches[k]? = some w → t.events.watches[k]? = some v →
          v.wall = w.wall ∧ v.course = w.course ∧ v.entered = w.entered ∧ v.mode = w.mode ∧ w.count ≤ v.count
            ∧ (v.enabled = true → w.enabled = true)

/-- A field byte that no range of its layout admits is refused with BadValue: the flags of Set Code, Watch Set and
Type Define that are neither 0 nor 1, and bit 7 of Slot Amend's field set. Assumptions 11 (DEDUCED) and 14. -/
def Obligations.FieldBytesOutOfTheirRanges : Prop :=
  (∀ (s : State) (b : Byte) (code : EngineerCode), s.engine = .idle → s.authority.frozen = false →
      s.authority.level = .engineer → 1 < b.toNat →
        exec (.setCode b code) s = .next (s.refuse .P 0x42 .badValue))
    ∧ (∀ (s : State) (f : WatchFields), s.takes .P .operational → f.number.toNat ≤ 7 → 1 < f.enabled.toNat →
        exec (.watchSet f) s = .next (s.refuse .P 0x0E .badValue))
    ∧ (∀ (s : State) (t : Byte) (f : TypeFields), s.takes .P .planShaping → t.toNat ≤ 63 →
        s.plan.typeInUse t.toNat = false → 1 < f.defined.toNat ∨ (f.defined = 1#8 ∧ 1 < f.cuttable.toNat) →
          exec (.typeDefine t f) s = .next (s.refuse .P 0x28 .badValue))
    ∧ ∀ (s : State) (a : SlotAddress) (i : Nat) (x : Slot) (bits : Byte) (f : DrawnFields), s.takes .P .planShaping →
        s.resolve .P a = some i → s.plan.slot? i = some x → x.state = .planned → (s.plan.wall x.wall).state = .draft →
          bits.getLsbD 7 = true →
            exec (.slotAmend a bits f) s = .next ((s.setCursor .P i).refuse .P 0x32 .badValue)

/-! ### Authority (spec/08) -/

/-- Unlock and Set Code, their tests in order (R151, R153). A presence byte above 1 is
`FieldBytesOutOfTheirRanges`. -/
def Obligations.UnlockAndSetCode : Prop :=
  ∀ (s : State) (code : EngineerCode), s.takes .P .authority →
    (s.authority.frozen = true → exec (.unlock code) s
        = .next (s.reply .P 0x40 .frozen (.unlock s.authority.level s.authority.attempts)))
      ∧ (s.authority.frozen = false → s.authority.level = .engineer → exec (.unlock code) s
        = .next (s.reply .P 0x40 .ok (.unlock .engineer s.authority.attempts)))
      ∧ (s.authority.frozen = false → s.authority.level = .operator → s.authority.attempts = 0 →
          exec (.unlock code) s = .next (s.reply .P 0x40 .exhausted (.unlock .operator 0)))
      ∧ (s.authority.frozen = false → s.authority.level = .operator → 0 < s.authority.attempts →
          (s.authority.code = some code → exec (.unlock code) s
            = .next (({ s with authority := { s.authority with level := .engineer } } : State).reply .P 0x40 .ok
                (.unlock .engineer s.authority.attempts)))
          ∧ (s.authority.code ≠ some code → exec (.unlock code) s
            = .next (({ s with authority := { s.authority with attempts := s.authority.attempts - 1 } } : State).reply
                .P 0x40 .authority (.unlock .operator (s.authority.attempts - 1)))))
      ∧ ∀ b : Byte,
          (s.authority.frozen = true → exec (.setCode b code) s = .next (s.refuse .P 0x42 .frozen))
          ∧ (s.authority.frozen = false → s.authority.level = .operator →
              exec (.setCode b code) s = .next (s.refuse .P 0x42 .authority))
          ∧ (s.authority.frozen = false → s.authority.level = .engineer → b.toNat ≤ 1 →
              exec (.setCode b code) s = .next (({ s with authority :=
                { s.authority with code := if b = 1#8 then some code else none } } : State).refuse .P 0x42 .ok))

/-- Lock, Freeze and Set EPL (R152, R154, R155). -/
def Obligations.LockFreezeAndSetEpl : Prop :=
  ∀ s : State,
    (s.takes .P .authority →
        (s.authority.code ≠ none → exec .lock s = .next (({ s with authority :=
          { s.authority with level := .operator } } : State).reply .P 0x41 .ok (.level .operator)))
        ∧ (s.authority.code = none → exec .lock s = .next (s.reply .P 0x41 .ok (.level s.authority.level)))
        ∧ exec .freeze s
          = .next (({ s with authority := { s.authority with frozen := true } } : State).refuse .P 0x43 .ok))
      ∧ (s.takes .P .planShaping →
        exec (.setEpl 0#8) s
            = .next (({ s with authority := { s.authority with epl := .operator } } : State).refuse .P 0x3B .ok)
          ∧ exec (.setEpl 1#8) s
            = .next (({ s with authority := { s.authority with epl := .engineer } } : State).refuse .P 0x3B .ok)
          ∧ ∀ b : Byte, 1 < b.toNat → exec (.setEpl b) s = .next (s.refuse .P 0x3B .badValue))

/-- Each item of the Authority Unit is changed by its own commands alone: the counter falls by one at a mismatched
Unlock and rises at power-on reset alone, Freeze is not undone, and the level is Operator only while a code is stored
(R148, R149, R154). -/
def Obligations.AuthorityLaw : Prop :=
  ∀ (c : Instr) (s t : State), exec c s = .next t →
    (s.authority.lawful → t.authority.lawful)
      ∧ (t.authority.code ≠ s.authority.code → ∃ b code, c = .setCode b code)
      ∧ (c ≠ .powerOnReset →
          (t.authority.attempts = s.authority.attempts
            ∨ (t.authority.attempts + 1 = s.authority.attempts
              ∧ ∃ code, c = .unlock code ∧ s.authority.code ≠ some code))
          ∧ (s.authority.frozen = true → t.authority.frozen = true)
          ∧ (t.authority.frozen ≠ s.authority.frozen → c = .freeze)
          ∧ (t.authority.level ≠ s.authority.level → c = .lock ∨ ∃ code, c = .unlock code)
          ∧ (t.authority.epl ≠ s.authority.epl → ∃ b, c = .setEpl b))

/-! ### Hold, bins, ESTOP and station (sections 2.5, 3.1, 3.6) -/

/-- Hold and Release set and clear the hold request (R65), Bin Status replaces the bin flags (R64), and a change of
ESTOP moves nothing else (R67). -/
def Obligations.HoldReleaseBinsAndEstop : Prop :=
  (∀ s : State, s.takes .P .operational →
      exec .hold s = .next (({ s with dispatcher := { s.dispatcher with hold := true } } : State).reply .P 0x12 .ok
          (.hold s.line.length (decide (s.line = []))))
        ∧ exec .release s = .next (({ s with dispatcher := { s.dispatcher with hold := false } } : State).reply
            .P 0x13 .ok (.hold s.line.length false)))
    ∧ ∀ s : State,
      (∀ empty, exec (.binStatus empty) s
          = .next (({ s with dispatcher := { s.dispatcher with binEmpty := empty } } : State).refuse .M 0x57 .ok))
        ∧ ∀ level, exec (.estopChange level) s = .next { s with estop := level }

/-- HELD is asserted exactly while the hold request stands and the line is empty; once risen it stays while the request
stands, and the hold request changes at Hold, Release and power-on reset alone (R65, R66, R70). STOPX is asserted exactly
while a carrier on the line is Faulted: it rises at the Target Request that makes the front carrier Faulted alone, and
falls where that carrier leaves, by its Reject or a reset alone (R57, R167). -/
def Obligations.HeldLaw : Prop :=
  (∀ s : State, (s.held = true ↔ s.dispatcher.hold = true ∧ s.line = [])
      ∧ (s.stopx = true ↔ ∃ d ∈ s.line, d.stage = .faulted))
    ∧ ∀ (c : Instr) (s t : State), exec c s = .next t →
      (s.held = true → t.dispatcher.hold = true → t.held = true)
        ∧ (t.dispatcher.hold ≠ s.dispatcher.hold → c = .hold ∨ c = .release ∨ c = .powerOnReset)
        ∧ (s.stopx = false → t.stopx = true → ∃ (tag : Byte) (d e : Carrier), c = .targetRequest tag
          ∧ s.line.head? = some d ∧ d.tag = tag.toNat ∧ d.stage = .glued
          ∧ t.line.head? = some e ∧ e = { d with stage := .faulted })
        ∧ ((s.line.map Carrier.tag).Nodup → s.stopx = true → t.stopx = false →
          c = .lineReset ∨ c = .powerOnReset ∨ ∃ (tag reason : Byte) (d : Carrier), c = .reject tag reason
            ∧ d ∈ s.line ∧ d.tag = tag.toNat ∧ d.stage = .faulted)
        ∧ (∀ (tag reason : Byte) (d : Carrier), c = .reject tag reason → s.faultedLaw → s.line.head? = some d →
          d.tag = tag.toNat → d.stage = .faulted → t.stopx = false)
        ∧ (c = .lineReset → t.stopx = false)

/-- Station takes a station or None while the line is empty, and every slot is re-judged (R43). A value out of range is
refused before the line is read: assumption 13 (DEDUCED). -/
def Obligations.StationRejudgesEverySlot : Prop :=
  ∀ (s : State) (v : Byte),
    (7 < v.toNat → v ≠ 0xFF#8 → exec (.station v) s = .next (s.refuse .M 0x50 .badValue))
      ∧ (v.toNat ≤ 7 ∨ v = 0xFF#8 →
          (s.line ≠ [] → exec (.station v) s = .next (s.refuse .M 0x50 .lineNotEmpty))
          ∧ (s.line = [] → tableWf s.plan.slots →
              exec (.station v) s = .next ((({ s with dispatcher := { s.dispatcher with
                station := if v = 0xFF#8 then none else some v.toNat } } : State).afterJudging
                  s.plan.indices).refuse .M 0x50 .ok)))

/-! ### Readiness and the queue (spec/02) -/

/-- A cause that re-judges slots: each Planned or Ready slot it names becomes Ready or Planned as the conditions of R26
say, no other state moves, the slots newly Ready are presented to the watches in ascending index order, the queue is
brought to its law, nothing else changes, and the order of the cause's list does not matter (R26, R27). -/
def Obligations.RejudgementFollowsTheConditions : Prop :=
  ∀ (s : State) (ids : List Nat), tableWf s.plan.slots →
    (s.rejudge ids).queueLaw
      ∧ s.rejudge ids = { s with
          plan := { s.plan with slots := (s.rejudge ids).plan.slots }
          dispatcher := { s.dispatcher with queue := (s.rejudge ids).dispatcher.queue }
          events := { s.events with watches := (s.rejudge ids).events.watches } }
      ∧ (∀ i, (s.rejudge ids).plan.slot? i = none ↔ s.plan.slot? i = none)
      ∧ (∀ i x, s.plan.slot? i = some x → ∃ st, (s.rejudge ids).plan.slot? i = some { x with state := st }
          ∧ (i ∈ ids → x.state = .planned ∨ x.state = .ready →
              (s.plan.readyUnless s.dispatcher.station x → st = .ready)
                ∧ (¬ s.plan.readyUnless s.dispatcher.station x → st = .planned))
          ∧ (i ∉ ids ∨ (x.state ≠ .planned ∧ x.state ≠ .ready) → st = x.state))
      ∧ (∃ l : List (Nat × Slot), (l.map Prod.fst).Pairwise (· < ·)
          ∧ (∀ i x, (i, x) ∈ l ↔ s.plan.slot? i = some x ∧ i ∈ ids ∧ x.state = .planned
              ∧ s.plan.readyUnless s.dispatcher.station x)
          ∧ (s.rejudge ids).events = s.events.presentAll l .ready s.clock)
      ∧ ∀ more : List Nat, (∀ i, i ∈ more ↔ i ∈ ids) → s.rejudge more = s.rejudge ids

/-- What the queue law requires: the Ready slots with the smallest keys, 64 of them or all if fewer, each once, in
ascending key order, where keys are compared part by part and no two are equal (R37, R38). -/
def Obligations.QueueHoldsTheSmallestKeys : Prop :=
  ∀ p : Plan, tableWf p.slots →
    (∀ i j x y, p.slot? i = some x → p.slot? j = some y → i ≠ j →
        (p.keyBefore i x j y ∧ ¬ p.keyBefore j y i x) ∨ (p.keyBefore j y i x ∧ ¬ p.keyBefore i x j y))
      ∧ p.queueByLaw.length = min 64 (p.slots.filter fun e => e.2.state = .ready).length
      ∧ p.queueByLaw.Nodup
      ∧ (∀ i ∈ p.queueByLaw, p.stateOf i = .ready)
      ∧ (∀ (m n i j : Nat) (x y : Slot), m < n → p.queueByLaw[m]? = some i → p.queueByLaw[n]? = some j →
          p.slot? i = some x → p.slot? j = some y → p.keyBefore i x j y)
      ∧ ∀ (i j : Nat) (x y : Slot), i ∈ p.queueByLaw → j ∉ p.queueByLaw → y.state = .ready →
          p.slot? i = some x → p.slot? j = some y → p.keyBefore i x j y

/-- Every step keeps the slot table in its form and the queue at its law (R38 to R41). -/
def Obligations.StepKeepsTheQueueLaw : Prop :=
  ∀ s t : State, tableWf s.plan.slots → s.queueLaw → step s = .next t → tableWf t.plan.slots ∧ t.queueLaw

/-! ### Claims (section 3.3) -/

/-- The conditions of R48 in their order: the first that holds decides the answer, whose reason is carried as one byte,
and nothing else changes; where none holds the Claim ends with a brick, or with AllBlocked or QueueEmpty. -/
def Obligations.ClaimRefusals : Prop :=
  ([NoBrickReason.clockUnset, .noStation, .eStop, .hold, .windStop, .glueGate, .queueEmpty, .allBlocked].map
      fun r => (Body.noBrick r).bytes) = [[1#8], [2#8], [3#8], [4#8], [5#8], [6#8], [7#8], [8#8]]
    ∧ ∀ s : State,
    let noBrick (r : NoBrickReason) : Prop := exec .claim s = .next (s.reply .M 0x51 .noBrick (.noBrick r))
    (s.clock = none → noBrick .clockUnset)
      ∧ (s.clock ≠ none →
        (s.dispatcher.station = none → noBrick .noStation)
          ∧ (s.dispatcher.station ≠ none →
            (s.estop = true → noBrick .eStop)
              ∧ (s.estop = false →
                (s.dispatcher.hold = true → noBrick .hold)
                  ∧ (s.dispatcher.hold = false →
                    (s.conditions.stop = .closed → noBrick .windStop)
                      ∧ (s.conditions.stop = .opened →
                        (s.conditions.glue = .closed → noBrick .glueGate)
                          ∧ (s.conditions.glue = .opened →
                            (8 ≤ s.line.length → exec .claim s = .next (s.refuse .M 0x51 .lineFull))
                              ∧ (s.line.length < 8 → s.dispatcher.queue = [] → noBrick .queueEmpty)))))))
      ∧ (s.claimGoesOn → ∃ t : State,
          (∃ b, exec .claim s = .next (t.reply .M 0x51 .ok (.claim b)))
            ∨ exec .claim s = .next (t.reply .M 0x51 .noBrick (.noBrick .allBlocked))
            ∨ exec .claim s = .next (t.reply .M 0x51 .noBrick (.noBrick .queueEmpty)))

/-- A Claim that goes on takes the first entry that is eligible and computes: the carrier joins at the tail with the
lowest free tag, the slot becomes Claimed and is presented, its left neighbour is re-judged, and the queue refills
(R46, R49, R51, R29). -/
def Obligations.ClaimTakesABrick : Prop :=
  ∀ (s : State) (n i : Nat) (x : Slot) (r : ClaimResult), tableWf s.plan.slots → s.claimGoesOn →
    s.dispatcher.queue[n]? = some i → s.plan.slot? i = some x → s.mayBeTaken x → s.plan.claimTime x = .ok r →
    (∀ m < n, ∀ j y, s.dispatcher.queue[m]? = some j → s.plan.slot? j = some y → ¬ s.mayBeTaken y) →
      ∃ (tag : Nat) (c : Carrier),
        (tag < 8 ∧ (∀ d ∈ s.line, d.tag ≠ tag) ∧ ∀ u < tag, ∃ d ∈ s.line, d.tag = u)
          ∧ c = { tag := tag
                  slot := i
                  stage := .picked
                  cutLength := match r.closer with
                    | some e => some e.2
                    | none => x.planCut
                  closer := r.closer.isSome
                  top := r.top
                  left := r.closer.map Prod.fst
                  deadline := none
                  targeted := false }
          ∧ exec .claim s = .next ((({ s with
              line := s.line ++ [c]
              plan := s.plan.modifySlot i fun y => { y with state := .claimed, tag := some tag }
              events := s.events.present i x .claimed s.clock } : State).afterJudging x.left.toList).reply .M 0x51 .ok
                (.claim ⟨tag, i, x.wall, x.course, x.type, (s.plan.brickType x.type).bin, c.cutLength, c.closer⟩))

/-- A Claim passes over entries that are not eligible and answers AllBlocked where none is; where the first eligible
entry faults, its slot enters Fault, PlanFault latches, the queue refills, and the Claim goes on as a Claim taken in the
state so left (R49, R50). -/
def Obligations.ClaimPassesOverAndFaults : Prop :=
  ∀ s : State, tableWf s.plan.slots → s.queueLaw → s.claimGoesOn →
    ((∀ i ∈ s.dispatcher.queue, ∀ x, s.plan.slot? i = some x → ¬ s.mayBeTaken x) →
        exec .claim s = .next (s.reply .M 0x51 .noBrick (.noBrick .allBlocked)))
      ∧ ∀ (n i : Nat) (x : Slot) (r : FaultReason), s.dispatcher.queue[n]? = some i → s.plan.slot? i = some x →
        s.mayBeTaken x → s.plan.claimTime x = .error r →
        (∀ m < n, ∀ j y, s.dispatcher.queue[m]? = some j → s.plan.slot? j = some y → ¬ s.mayBeTaken y) →
          ∀ q : Plan, q = (s.plan.modifySlot i fun y => { y with state := .fault, faultReason := some r }) →
            exec .claim s = exec .claim { s with
              plan := q
              dispatcher := { s.dispatcher with queue := q.queueByLaw }
              events := { s.events.present i x .fault s.clock with planFault := true } }

/-! ### Reports of the machine controller (sections 3.4, 3.5, 5.1, 5.2) -/

/-- The tests every report meets first, in their order (R52), and Cut Done from each stage (R53). -/
def Obligations.ReportTestsAndCutDone : Prop :=
  ∀ (s : State) (tag : Byte),
    ((∀ d ∈ s.line, d.tag ≠ tag.toNat) →
        exec (.cutDone tag) s = .next (s.refuse .M 0x52 .badAddress)
          ∧ exec (.glued tag) s = .next (s.refuse .M 0x53 .badAddress)
          ∧ exec (.targetRequest tag) s = .next (s.refuse .M 0x54 .badAddress)
          ∧ (∀ f, exec (.laid tag f) s = .next (s.refuse .M 0x55 .badAddress))
          ∧ ∀ reason, exec (.reject tag reason) s = .next (s.refuse .M 0x56 .badAddress))
      ∧ ((∃ d ∈ s.line, d.tag = tag.toNat) → ∀ f : LaidFields,
          (200000 < f.left.toNat ∨ 200000 < f.right.toNat ∨ 500000 < f.topLeft.toNat ∨ 500000 < f.topRight.toNat →
            exec (.laid tag f) s = .next (s.refuse .M 0x55 .badValue))
          ∧ ((∀ d, s.line.head? = some d → d.tag ≠ tag.toNat) →
            exec (.targetRequest tag) s = .next (s.refuse .M 0x54 .notFront)
              ∧ (f.left.toNat ≤ 200000 → f.right.toNat ≤ 200000 → f.topLeft.toNat ≤ 500000 →
                  f.topRight.toNat ≤ 500000 → exec (.laid tag f) s = .next (s.refuse .M 0x55 .notFront))))
      ∧ ∀ c, s.carrier? tag.toNat = some c →
          (c.stage = .picked → c.cutLength ≠ none →
            exec (.cutDone tag) s = .next (({ s with
              line := lineWith s.line c.tag fun d => { d with stage := .cut } } : State).reply .M 0x52 .ok
                (.cutDone c.tag .cut)))
          ∧ (c.stage ≠ .picked ∨ c.cutLength = none → exec (.cutDone tag) s = .next (s.refuse .M 0x52 .outOfStep))

/-- Glued is taken from Cut, and from Picked without a cut length: the open time is 60 for a stale record and else by
the steps of R109, it lies between 60 and 3600, and the deadline saturates (R54, R109, R110). -/
def Obligations.GluedFixesTheDeadline : Prop :=
  ∀ (s : State) (tag : Byte) (c : Carrier), s.carrier? tag.toNat = some c →
    (∀ now, s.clock = some now → c.stage = .cut ∨ (c.stage = .picked ∧ c.cutLength = none) →
        ∃ ot deadline : Nat,
          (s.conditions.stale = true → ot = 60)
            ∧ (s.conditions.stale = false → (ot : Int) = max 60 (min 3600 (s.options.otRef
                - (s.options.otRef * s.options.slope * (s.conditions.temperature - 20)).tdiv 1024)))
            ∧ 60 ≤ ot ∧ ot ≤ 3600
            ∧ deadline = min (now + ot) 4294967295
            ∧ exec (.glued tag) s = .next (({ s with
                line := lineWith s.line c.tag fun d => { d with stage := .glued, deadline := some deadline } }
                  : State).reply .M 0x53 .ok (.glued c.tag .glued ot deadline)))
      ∧ (¬ (c.stage = .cut ∨ (c.stage = .picked ∧ c.cutLength = none)) →
          exec (.glued tag) s = .next (s.refuse .M 0x53 .outOfStep))

/-- Target Request from the front carrier, stage by stage: L by the three cases of R76 with the band of R77 and the drift
check of R78, a closer's L as fixed at claim (R79), the target part and the flags written (R84, R85), or the carrier
Faulted (R55 to R57). -/
def Obligations.TargetRequestIssuesTheTarget : Prop :=
  ∀ (s : State) (tag : Byte) (c : Carrier), s.line.head? = some c → c.tag = tag.toNat →
    (c.stage = .picked ∨ c.stage = .cut → exec (.targetRequest tag) s = .next (s.refuse .M 0x54 .outOfStep))
      ∧ (c.stage = .expired → exec (.targetRequest tag) s = .next (s.refuse .M 0x54 .discard))
      ∧ (c.stage = .faulted → exec (.targetRequest tag) s = .next (s.reply .M 0x54 .fault (.faulted .drift)))
      ∧ ∀ x, s.plan.slot? c.slot = some x →
        (∀ g, c.stage = .targeted → x.target = some g →
            exec (.targetRequest tag) s = .next (s.reply .M 0x54 .ok (.target c.tag .targeted g x.corrected)))
          ∧ (c.stage = .glued →
            (∀ l,
              ((c.closer = true ∧ c.left = some l)
                ∨ (c.closer = false ∧ l = x.designLeft ∧ ∀ j, x.left = some j → s.plan.isLaid j = false)
                ∨ (c.closer = false ∧ ∃ j y a, x.left = some j ∧ s.plan.slot? j = some y ∧ y.state.laid = true
                  ∧ y.asLaid = some a
                  ∧ l = heldInBand (a.right + (s.plan.wall x.wall).params.jointMin)
                      (a.right + (s.plan.wall x.wall).params.jointMax) x.designLeft
                  ∧ ((l : Int) - x.designLeft).natAbs ≤ (s.plan.wall x.wall).params.driftMax)) →
              ∃ (g : Target) (corrected : Bool),
                g = ⟨c.top, l, c.cutLength.getD (s.plan.fullLength x)⟩
                  ∧ (corrected = true ↔ c.top ≠ s.plan.designTop x ∨ l ≠ x.designLeft)
                  ∧ exec (.targetRequest tag) s = .next (({ s with
                      line := lineWith s.line c.tag fun d =>
                        { d with stage := .targeted, left := some l, targeted := true }
                      plan := s.plan.modifySlot c.slot fun y => { y with
                        target := some g
                        corrected := corrected
                        openLeft := x.left.any fun j => !s.plan.isLaid j } } : State).reply .M 0x54 .ok
                          (.target c.tag .targeted g corrected)))
            ∧ ∀ j y a, c.closer = false → x.left = some j → s.plan.slot? j = some y → y.state.laid = true →
                y.asLaid = some a →
                (s.plan.wall x.wall).params.driftMax
                  < ((heldInBand (a.right + (s.plan.wall x.wall).params.jointMin)
                      (a.right + (s.plan.wall x.wall).params.jointMax) x.designLeft : Int) - x.designLeft).natAbs →
                  exec (.targetRequest tag) s = .next (({ s with
                    line := lineWith s.line c.tag fun d => { d with stage := .faulted } } : State).reply .M 0x54 .fault
                      (.faulted .drift)))

/-- Laid from the front carrier: from Targeted the four deviations are judged against the tolerances and the slot becomes
Set or Suspect, from Expired after a target it becomes Suspect late, from any other stage nothing changes; the
consequences are those of R92 and R93 (R58, R59, R89 to R93). -/
def Obligations.LaidIsJudged : Prop :=
  ∀ (s : State) (tag : Byte) (f : LaidFields) (c : Carrier), s.line.head? = some c → c.tag = tag.toNat →
    f.left.toNat ≤ 200000 → f.right.toNat ≤ 200000 → f.topLeft.toNat ≤ 500000 → f.topRight.toNat ≤ 500000 →
    (c.stage = .picked ∨ c.stage = .cut ∨ c.stage = .glued ∨ c.stage = .faulted
        ∨ (c.stage = .expired ∧ c.targeted = false) →
        exec (.laid tag f) s = .next (s.refuse .M 0x55 .outOfStep))
      ∧ ∀ (x : Slot) (now : Nat) (a : AsLaid), tableWf s.plan.slots → s.plan.slot? c.slot = some x →
        s.clock = some now → a = ⟨f.left.toNat, f.right.toNat, f.topLeft.toNat, f.topRight.toNat, now⟩ →
        (c.stage = .expired → c.targeted = true →
            exec (.laid tag f) s = .next
              ((((s.afterLaying c x .suspect a true).afterSuspect).afterJudging
                (x.left.toList ++ x.right.toList)).refuse .M 0x55 .late))
          ∧ ∀ (g : Target) (d : Deviations), c.stage = .targeted → x.target = some g →
            d = ⟨a.topLeft - g.top, a.topRight - g.top, a.left - g.left, a.right - (g.left + g.length)⟩ →
            (d.topLeft.natAbs ≤ (s.plan.wall x.wall).params.heightTol
                ∧ d.topRight.natAbs ≤ (s.plan.wall x.wall).params.heightTol
                ∧ d.left.natAbs ≤ (s.plan.wall x.wall).params.positionTol
                ∧ d.right.natAbs ≤ (s.plan.wall x.wall).params.positionTol →
                exec (.laid tag f) s = .next
                  ((((s.afterLaying c x .set a false).afterJudging
                    (s.plan.followers c.slot ++ (x.left.toList ++ x.right.toList))).afterCompletion x.wall).reply
                      .M 0x55 .ok (.laid c.tag .set d)))
              ∧ (¬ (d.topLeft.natAbs ≤ (s.plan.wall x.wall).params.heightTol
                ∧ d.topRight.natAbs ≤ (s.plan.wall x.wall).params.heightTol
                ∧ d.left.natAbs ≤ (s.plan.wall x.wall).params.positionTol
                ∧ d.right.natAbs ≤ (s.plan.wall x.wall).params.positionTol) →
                exec (.laid tag f) s = .next
                  ((((s.afterLaying c x .suspect a false).afterSuspect).afterJudging
                    (x.left.toList ++ x.right.toList)).reply .M 0x55 .ok (.laid c.tag .suspect d)))

/-- Reject from any carrier: a Faulted one leaves its slot in Fault with reason Drift and latches PlanFault, any other
returns its slot to Planned without its target part, and the slot and its left neighbour are judged (R60, R61). -/
def Obligations.RejectReturnsTheSlot : Prop :=
  ∀ (s : State) (tag reason : Byte) (c : Carrier) (x : Slot), tableWf s.plan.slots → s.carrier? tag.toNat = some c →
    s.plan.slot? c.slot = some x →
    (c.stage ≠ .faulted → ∃ t : State,
        t = ({ s with
              line := lineWithout s.line c.tag
              plan := s.plan.modifySlot c.slot fun y =>
                { y with state := .planned, tag := none, target := none, openLeft := false, corrected := false }
            } : State).afterJudging (c.slot :: x.left.toList)
          ∧ exec (.reject tag reason) s
            = .next (t.reply .M 0x56 .ok (.rejected c.tag reason.toNat (t.plan.stateOf c.slot))))
      ∧ (c.stage = .faulted →
        exec (.reject tag reason) s = .next ((({ s with
            line := lineWithout s.line c.tag
            plan := s.plan.modifySlot c.slot fun y =>
              { y with
                state := .fault, tag := none, target := none, openLeft := false, corrected := false
                faultReason := some .drift }
            events := { s.events.present c.slot x .fault s.clock with planFault := true } }
              : State).afterJudging (c.slot :: x.left.toList)).reply .M 0x56 .ok
                (.rejected c.tag reason.toNat .fault)))

/-- An expiry that is due makes its carrier Expired and latches Expiry; a staleness that is due closes the gates and
latches Stale, with GateChange where a gate was Open (R62, R114). Neither occurs where it is not due, and a due one may be
taken at any later value of the clock: assumptions 2 and 18. The staleness of the advance to the clock's largest value is
in `ClockLaw`. -/
def Obligations.ExpiryAndStaleness : Prop :=
  (∀ (s : State) (tag : Nat) (c : Carrier), s.carrier? tag = some c →
      (∀ d now, c.stage = .glued ∨ c.stage = .targeted → c.deadline = some d → s.clock = some now → d ≤ now →
        exec (.adhesiveExpiry tag) s = .next { s with
          line := lineWith s.line tag fun e => { e with stage := .expired }
          events := { s.events with expiry := true } })
        ∧ ((c.stage ≠ .glued ∧ c.stage ≠ .targeted)
            ∨ (∀ d now, c.deadline = some d → s.clock = some now → now < d) →
          exec (.adhesiveExpiry tag) s = .next s))
    ∧ (∀ (s : State) (tag : Nat), s.carrier? tag = none → exec (.adhesiveExpiry tag) s = .next s)
    ∧ ∀ s : State,
      (∀ r now, s.conditions.stale = false → s.conditions.lastReport = some r → s.clock = some now →
          min (r + 30) 4294967295 ≤ now →
          exec .staleness s = .next { s with
            conditions := { s.conditions with stale := true, glue := .closed, exposure := .closed, stop := .closed }
            events := { s.events with
              stale := true
              gateChange := s.events.gateChange || s.conditions.glue == .opened || s.conditions.exposure == .opened
                || s.conditions.stop == .opened } })
        ∧ (s.conditions.stale = true
            ∨ (∀ r now, s.conditions.lastReport = some r → s.clock = some now → now < min (r + 30) 4294967295) →
          exec .staleness s = .next s)

/-! ### Placement (spec/04) -/

/-- The support ends (R73), and the top clamped into the height band, with the bed it leaves over every end, or
SupportStep where the band is empty (R74). -/
def Obligations.TopIsHeldInTheHeightBand : Prop :=
  (∀ (p : Plan) (x : Slot),
      (x.supports = [] →
        p.supportEnds x = [(p.wall x.wall).params.base, (p.wall x.wall).params.base])
      ∧ ∀ parts : List AsLaid, x.supports ≠ [] →
        (x.supports.map fun j => (p.slot? j).bind Slot.asLaid) = parts.map some →
          p.supportEnds x = parts.flatMap fun a => [a.topLeft, a.topRight])
    ∧ ∀ (p : Plan) (x : Slot) (maxTop minTop lo hi : Nat),
      maxTop ∈ p.supportEnds x → minTop ∈ p.supportEnds x → (∀ e ∈ p.supportEnds x, minTop ≤ e ∧ e ≤ maxTop) →
      lo = maxTop + (p.brickType x.type).height + (p.wall x.wall).params.bedMin →
      hi = minTop + (p.brickType x.type).height + (p.wall x.wall).params.bedMax →
        (hi < lo → p.claimTop x = .error .supportStep)
          ∧ (lo ≤ hi → ∃ t, p.claimTop x = .ok t
            ∧ (p.designTop x < lo → t = lo)
            ∧ (hi < p.designTop x → t = hi)
            ∧ (lo ≤ p.designTop x → p.designTop x ≤ hi → t = p.designTop x)
            ∧ ∀ e ∈ p.supportEnds x,
              e + (p.brickType x.type).height + (p.wall x.wall).params.bedMin ≤ t
                ∧ t ≤ e + (p.brickType x.type).height + (p.wall x.wall).params.bedMax)

/-- Against a laid left neighbour the left end is the design left clamped into the joint band, with the joint it leaves,
or Drift beyond the wall's drift max; otherwise it is the design left (R76 to R78, R80). That this is so of a closer whose
left neighbour is present and not laid is assumption 25 (DEDUCED). -/
def Obligations.LeftEndIsHeldInTheJointBand : Prop :=
  ∀ (p : Plan) (x : Slot),
    ((∀ j, x.left = some j → p.isLaid j = false) → p.leftEnd x = .ok x.designLeft)
      ∧ ∀ (j : Nat) (y : Slot) (a : AsLaid) (lo hi l : Nat), x.left = some j → p.slot? j = some y →
        y.state.laid = true → y.asLaid = some a → (p.wall x.wall).params.meetsRanges →
        lo = a.right + (p.wall x.wall).params.jointMin → hi = a.right + (p.wall x.wall).params.jointMax →
        (x.designLeft < lo → l = lo) → (hi < x.designLeft → l = hi) →
        (lo ≤ x.designLeft → x.designLeft ≤ hi → l = x.designLeft) →
          (((l : Int) - x.designLeft).natAbs ≤ (p.wall x.wall).params.driftMax → p.leftEnd x = .ok l)
            ∧ ((p.wall x.wall).params.driftMax < ((l : Int) - x.designLeft).natAbs → p.leftEnd x = .error .drift)
            ∧ (p.wall x.wall).params.jointMin ≤ l - a.right ∧ l - a.right ≤ (p.wall x.wall).params.jointMax
            ∧ a.right ≤ l

/-- A closer's length is the raw gap rounded down to a multiple of 5, checked in the order of R82, and leaves a right
joint between joint nominal and joint nominal + 4, inside the joint band (R81 to R83); the claim-time computation runs
its parts in the order of R75. -/
def Obligations.CloserLengthFitsTheGap : Prop :=
  (∀ (p : Plan) (x : Slot) (l r : Nat) (raw : Int), raw = (r : Int) - (p.wall x.wall).params.jointNominal - l →
      (raw < 0 → p.closerLength x l r = .error .gapNarrow)
        ∧ ∀ n : Nat, 0 ≤ raw → n % 5 = 0 → (n : Int) ≤ raw → raw < n + 5 →
          ((p.brickType x.type).length < n → p.closerLength x l r = .error .gapWide)
            ∧ (n ≤ (p.brickType x.type).length → n < (p.brickType x.type).minCut →
                p.closerLength x l r = .error .gapNarrow)
            ∧ (n < (p.brickType x.type).length → (p.brickType x.type).minCut ≤ n →
                (p.brickType x.type).cuttable = false → p.closerLength x l r = .error .notCuttable)
            ∧ (n ≤ (p.brickType x.type).length → (p.brickType x.type).minCut ≤ n →
                n = (p.brickType x.type).length ∨ (p.brickType x.type).cuttable = true →
                  p.closerLength x l r = .ok n
                    ∧ (p.wall x.wall).params.jointNominal ≤ r - (l + n)
                    ∧ r - (l + n) ≤ (p.wall x.wall).params.jointNominal + 4
                    ∧ l + n ≤ r
                    ∧ ((p.wall x.wall).params.meetsRanges → (p.wall x.wall).params.jointMin ≤ r - (l + n)
                      ∧ r - (l + n) ≤ (p.wall x.wall).params.jointMax)))
    ∧ ∀ (p : Plan) (x : Slot),
      (∀ e, p.claimTop x = .error e → p.claimTime x = .error e)
        ∧ ∀ t, p.claimTop x = .ok t →
          ((∀ j, x.right = some j → p.isLaid j = false) → p.claimTime x = .ok ⟨t, none⟩)
            ∧ ∀ (j : Nat) (y : Slot) (a : AsLaid), x.right = some j → p.slot? j = some y → y.state.laid = true →
              y.asLaid = some a →
                (∀ e, p.leftEnd x = .error e → p.claimTime x = .error e)
                  ∧ ∀ l, p.leftEnd x = .ok l →
                    (∀ e, p.closerLength x l a.left = .error e → p.claimTime x = .error e)
                      ∧ ∀ n, p.closerLength x l a.left = .ok n → p.claimTime x = .ok ⟨t, some (l, n)⟩

/-! ### Site time, weather and options (spec/06) -/

/-- The clock counts one second at a time and holds at its largest value, and a record still fresh turns stale at the
advance to that value; while a carrier is on the line no event but its own advance and power-on reset moves the clock, and
at any time only those and Set Time do (R106, R107, R114). That the advance itself takes that staleness is assumption 19
(DEDUCED). -/
def Obligations.ClockLaw : Prop :=
  (∀ s : State,
      (s.clock = none → exec .clockTick s = .next s)
        ∧ (∀ t, s.clock = some t → t < 4294967294 ∨ (t = 4294967294 ∧ s.conditions.stale = true) →
          exec .clockTick s = .next { s with clock := some (t + 1) })
        ∧ (s.clock = some 4294967294 → s.conditions.stale = false → exec .clockTick s = .next { s with
            clock := some 4294967295
            conditions := { s.conditions with stale := true, glue := .closed, exposure := .closed, stop := .closed }
            events := { s.events with
              stale := true
              gateChange := s.events.gateChange || s.conditions.someGateOpen } })
        ∧ (∀ t, s.clock = some t → 4294967295 ≤ t → exec .clockTick s = .next s))
    ∧ ∀ (c : Instr) (s t : State), exec c s = .next t → c ≠ .clockTick → c ≠ .powerOnReset →
      (s.line ≠ [] → t.clock = s.clock) ∧ (t.clock ≠ s.clock → ∃ v, c = .setTime v)

/-- Set Time is refused while a carrier is on the line; else the clock takes the value and the record turns stale with
its gates Closed, with the latches that calls for (R107). -/
def Obligations.SetTimeMakesTheRecordStale : Prop :=
  (∀ (s : State) (v : Word), s.engine = .idle → ¬ s.takes .P .planShaping →
      exec (.setTime v) s = .next (s.refuse .P 0x39 .authority))
    ∧ ∀ (s : State) (v : Word), s.takes .P .planShaping →
    (s.line ≠ [] → exec (.setTime v) s = .next (s.refuse .P 0x39 .lineNotEmpty))
      ∧ (s.line = [] → exec (.setTime v) s = .next (({ s with
          clock := some v.toNat
          conditions := { s.conditions with
            stale := true, lastReport := none, glue := .closed, exposure := .closed, stop := .closed }
          events := { s.events with
            stale := s.events.stale || !s.conditions.stale
            gateChange := s.events.gateChange || s.conditions.someGateOpen } } : State).reply .P 0x39 .ok
              (.clockSet v.toNat)))

/-- A Conditions report stores clamped values; with the clock set and below its largest value it makes the record fresh
and evaluates the gates, latching GateChange where one changed; with the clock Unset or at its largest value the record is
stale with its gates Closed and nothing latches (R112, R113, R117 to R119). -/
def Obligations.ConditionsReportSetsTheGates : Prop :=
  ∀ (s : State) (temperature wind : Byte) (t : Int) (w : Nat) (range : Bool),
    t = max (-40) (min 85 temperature.toInt) → w = min 250 wind.toNat →
    range = decide (t ≠ temperature.toInt ∨ w ≠ wind.toNat) →
      (∀ now, s.clock = some now → now < 4294967295 → ∃ c : Conditions,
          c = { temperature := t
                wind := w
                lastReport := some now
                stale := false
                range := range
                glue := if s.options.tGlueMin ≤ t ∧ t ≤ s.options.tGlueMax then .opened else .closed
                exposure := if (s.conditions.exposure = .opened ∧ (w : Int) < s.options.exposureClose)
                    ∨ (s.conditions.exposure = .closed ∧ (w : Int) < s.options.exposureOpen)
                  then .opened else .closed
                stop := if (s.conditions.stop = .opened ∧ (w : Int) < s.options.stopClose)
                    ∨ (s.conditions.stop = .closed ∧ (w : Int) < s.options.stopOpen)
                  then .opened else .closed }
            ∧ exec (.conditions temperature wind) s = .next (({ s with
                conditions := c
                events := { s.events with
                  gateChange := s.events.gateChange || decide (c.glue ≠ s.conditions.glue
                    ∨ c.exposure ≠ s.conditions.exposure ∨ c.stop ≠ s.conditions.stop) } } : State).reply .M 0x58 .ok
                      (.weather c)))
        ∧ (s.clock = none ∨ s.clock = some 4294967295 → ∃ c : Conditions,
          c = { temperature := t
                wind := w
                lastReport := s.clock
                stale := true
                range := range
                glue := .closed
                exposure := .closed
                stop := .closed }
            ∧ exec (.conditions temperature wind) s
              = .next (({ s with conditions := c } : State).reply .M 0x58 .ok (.weather c)))

/-- Set Option answers Unknown to a code of no option, clamps the value, refuses one that breaks its pair relation, and
else writes that option alone (R123, R124). -/
def Obligations.SetOptionClampsAndTests : Prop :=
  (∀ (s : State) (code : Byte) (value : Word), s.engine = .idle → ¬ s.takes .P .planShaping →
      exec (.setOption code value) s = .next (s.refuse .P 0x3A .authority))
    ∧ ∀ (s : State) (code : Byte) (value : Word), s.takes .P .planShaping → s.options.lawful →
    (code.toNat = 0 ∨ 10 < code.toNat → exec (.setOption code value) s = .next (s.refuse .P 0x3A .unknown))
      ∧ ∀ (lo hi v : Int) (o : Options), (code.toNat, lo, hi) ∈ optionTable → v = max lo (min hi value.toInt) →
        (∀ k, o.valueOf k = if k = code.toNat then v else s.options.valueOf k) →
          (o.pairsHold → exec (.setOption code value) s
            = .next (({ s with options := o } : State).reply .P 0x3A .ok (.option code.toNat v)))
          ∧ (¬ o.pairsHold → exec (.setOption code value) s = .next (s.refuse .P 0x3A .badValue))

/-- Every step keeps the records in their ranges: the options and their pair relations (R123), the conditions record with
its gates Closed while stale and stale while the clock is Unset or at its largest value (R106, R111, R113, R120), the watches (R157), the clock
(R105), the wall parameters and priorities (R7, R8), and the cursors (R15). -/
def Obligations.StepKeepsTheRecordsInRange : Prop :=
  ∀ s t : State, step s = .next t →
    (s.options.lawful → t.options.lawful)
      ∧ (s.weatherLaw → t.weatherLaw)
      ∧ (s.events.lawful → t.events.lawful)
      ∧ (s.clockRange → t.clockRange)
      ∧ (s.plan.paramsLaw → t.plan.paramsLaw)
      ∧ (tableWf s.plan.slots → s.cursorLaw → t.cursorLaw)

/-! ### Walls and the catalogue (sections 1.3 and 1.6) -/

/-- Wall Define and Wall Set, their tests in order and their effects (R8, R18, R19). -/
def Obligations.WallDefineAndWallSet : Prop :=
  ∀ (s : State) (w : Byte) (f : WallFields) (priority : Byte) (x : Wall) (p : WallParams), s.takes .P .planShaping →
    x = s.plan.wall w.toNat → p = WallParams.asCarried f →
    (31 < w.toNat → exec (.wallDefine w f priority) s = .next (s.refuse .P 0x20 .badAddress)
        ∧ exec (.wallSet w f) s = .next (s.refuse .P 0x21 .badAddress))
      ∧ (w.toNat ≤ 31 →
        (x.state ≠ .free → exec (.wallDefine w f priority) s = .next (s.refuse .P 0x20 .badState))
          ∧ (x.state = .free → ¬ p.meetsRanges →
            exec (.wallDefine w f priority) s = .next (s.refuse .P 0x20 .badValue))
          ∧ (x.state = .free → p.meetsRanges →
            exec (.wallDefine w f priority) s = .next ((s.replan (s.plan.modifyWall w.toNat fun _ =>
              { state := .draft
                params := p
                priority := min priority.toNat 7
                audited := false
                complete := false
                slotCount := 0
                laidCount := 0 })).refuse .P 0x20 .ok))
          ∧ (x.state = .free ∨ x.state = .closed → exec (.wallSet w f) s = .next (s.refuse .P 0x21 .badState))
          ∧ (x.state = .opened ∨ x.state = .paused → s.held = false →
            exec (.wallSet w f) s = .next (s.refuse .P 0x21 .notHeld))
          ∧ (x.state = .draft ∨ ((x.state = .opened ∨ x.state = .paused) ∧ s.held = true) →
            (¬ p.meetsRanges → exec (.wallSet w f) s = .next (s.refuse .P 0x21 .badValue))
              ∧ (p.meetsRanges → x.state ≠ .draft →
                (∃ e ∈ s.plan.slots, e.2.wall = w.toNat ∧ p.courseCount ≤ e.2.course) →
                  exec (.wallSet w f) s = .next (s.refuse .P 0x21 .badValue))
              ∧ (p.meetsRanges →
                x.state = .draft ∨ (∀ e ∈ s.plan.slots, e.2.wall = w.toNat → e.2.course < p.courseCount) →
                  exec (.wallSet w f) s = .next (({ s with plan := s.plan.modifyWall w.toNat fun y => { y with
                    params := p
                    audited := y.audited && decide (p.base = x.params.base ∧ p.courseHeight = x.params.courseHeight
                      ∧ p.courseCount = x.params.courseCount) } } : State).refuse .P 0x21 .ok))))

/-- Wall Open, Pause, Resume and Priority: the states each is taken in, the wall's new state with every slot of it
re-judged, and the queue by the new keys (R20 to R23, R36, R40). -/
def Obligations.WallLifecycle : Prop :=
  ∀ (s : State) (w v : Byte) (x : Wall) (ids : List Nat), s.takes .P .operational → x = s.plan.wall w.toNat →
    ids = (s.plan.slotsOf w.toNat).map Prod.fst → tableWf s.plan.slots →
    (31 < w.toNat → exec (.wallOpen w) s = .next (s.refuse .P 0x22 .badAddress)
        ∧ exec (.pause w) s = .next (s.refuse .P 0x23 .badAddress)
        ∧ exec (.resume w) s = .next (s.refuse .P 0x24 .badAddress)
        ∧ exec (.priority w v) s = .next (s.refuse .P 0x27 .badAddress))
      ∧ (w.toNat ≤ 31 →
        (x.state ≠ .draft → exec (.wallOpen w) s = .next (s.refuse .P 0x22 .badState))
          ∧ (x.state = .draft → x.audited = false → exec (.wallOpen w) s = .next (s.refuse .P 0x22 .notAudited))
          ∧ (x.state = .draft → x.audited = true → exec (.wallOpen w) s = .next ((({ s with
              plan := s.plan.modifyWall w.toNat fun y => { y with state := .opened } } : State).afterJudging
                ids).refuse .P 0x22 .ok))
          ∧ (x.state ≠ .opened → exec (.pause w) s = .next (s.refuse .P 0x23 .badState))
          ∧ (x.state = .opened → exec (.pause w) s = .next ((({ s with
              plan := s.plan.modifyWall w.toNat fun y => { y with state := .paused } } : State).afterJudging
                ids).refuse .P 0x23 .ok))
          ∧ (x.state ≠ .paused → exec (.resume w) s = .next (s.refuse .P 0x24 .badState))
          ∧ (x.state = .paused → exec (.resume w) s = .next ((({ s with
              plan := s.plan.modifyWall w.toNat fun y => { y with state := .opened } } : State).afterJudging
                ids).refuse .P 0x24 .ok))
          ∧ (x.state = .free → exec (.priority w v) s = .next (s.refuse .P 0x27 .badState))
          ∧ (x.state ≠ .free → exec (.priority w v) s = .next ((s.replan (s.plan.modifyWall w.toNat fun y =>
              { y with priority := min v.toNat 7 })).refuse .P 0x27 .ok)))

/-- Close retires every slot of an Open or Paused wall whose slots are all Set; Wall Free empties a Draft or Closed wall;
what read the slots' states is re-judged (R24, R25, R34, R160). -/
def Obligations.CloseAndWallFree : Prop :=
  ∀ (s : State) (w : Byte) (x : Wall) (l : List (Nat × Slot)), x = s.plan.wall w.toNat →
    l = (s.plan.slots.filter fun e => e.2.wall = w.toNat) → tableWf s.plan.slots →
    (s.takes .P .operational →
        (31 < w.toNat → exec (.close w) s = .next (s.refuse .P 0x25 .badAddress))
        ∧ (w.toNat ≤ 31 →
          ((x.state ≠ .opened ∧ x.state ≠ .paused) ∨ (∃ e ∈ l, e.2.state ≠ .set) →
            exec (.close w) s = .next (s.refuse .P 0x25 .badState))
          ∧ ((x.state = .opened ∨ x.state = .paused) → (∀ e ∈ l, e.2.state = .set) →
            exec (.close w) s = .next ((({ s with
              plan := { s.plan.modifyWall w.toNat fun y => { y with state := .closed } with
                slots := s.plan.slots.map fun e =>
                  (e.1, if e.2.wall = w.toNat then { e.2 with state := .retired } else e.2) }
              events := s.events.presentAll l .retired s.clock } : State).afterJudging
                (l.flatMap fun e => s.plan.followers e.1)).reply .P 0x25 .ok (.count l.length)))))
      ∧ (s.takes .P .planShaping →
        (31 < w.toNat → exec (.wallFree w) s = .next (s.refuse .P 0x26 .badAddress))
        ∧ (w.toNat ≤ 31 →
          (x.state ≠ .draft → x.state ≠ .closed → exec (.wallFree w) s = .next (s.refuse .P 0x26 .badState))
          ∧ (x.state = .draft ∨ x.state = .closed →
            exec (.wallFree w) s = .next ((({ s with
              plan := { s.plan.modifyWall w.toNat fun _ => Wall.freeWall with
                slots := s.plan.slots.filter fun e => e.2.wall ≠ w.toNat } } : State).afterJudging
                  ((l.filter fun e => e.2.state.laid).flatMap fun e =>
                    s.plan.followers e.1 ++ (e.2.left.toList ++ e.2.right.toList))).reply .P 0x26 .ok
                      (.count l.length)))))

/-- Type Define writes one catalogue entry that no slot uses, its refusals in the order BadAddress, InUse, BadValue (R11,
R12), which is assumption 12 (DEDUCED). Flag bytes above 1 are `FieldBytesOutOfTheirRanges`. -/
def Obligations.TypeDefineWritesOneEntry : Prop :=
  ∀ (s : State) (t : Byte) (f : TypeFields), s.takes .P .planShaping → f.defined.toNat ≤ 1 →
    (f.defined = 1#8 → f.cuttable.toNat ≤ 1) →
    (63 < t.toNat → exec (.typeDefine t f) s = .next (s.refuse .P 0x28 .badAddress))
      ∧ (t.toNat ≤ 63 →
        ((s.plan.brickType t.toNat).defined = true → (∃ e ∈ s.plan.slots, e.2.type = t.toNat) →
            exec (.typeDefine t f) s = .next (s.refuse .P 0x28 .inUse))
          ∧ ((s.plan.brickType t.toNat).defined = false ∨ (∀ e ∈ s.plan.slots, e.2.type ≠ t.toNat) →
            (f.defined = 0#8 → exec (.typeDefine t f) s = .next (({ s with
                plan := s.plan.setType t.toNat ⟨false, 0, 0, 0, false, 0⟩ } : State).refuse .P 0x28 .ok))
            ∧ (f.defined = 1#8 →
              f.length.toNat < 500 ∨ 6000 < f.length.toNat ∨ f.height.toNat < 400 ∨ 5000 < f.height.toNat
                  ∨ 15 < f.bin.toNat ∨ f.minCut.toNat < 100 ∨ f.length.toNat < f.minCut.toNat →
                exec (.typeDefine t f) s = .next (s.refuse .P 0x28 .badValue))
            ∧ (f.defined = 1#8 →
              (500 ≤ f.length.toNat ∧ f.length.toNat ≤ 6000) → (400 ≤ f.height.toNat ∧ f.height.toNat ≤ 5000) →
              f.bin.toNat ≤ 15 → (100 ≤ f.minCut.toNat ∧ f.minCut.toNat ≤ f.length.toNat) →
                ∀ b : BrickType, b = ⟨true, f.length.toNat, f.height.toNat, f.bin.toNat, decide (f.cuttable = 1#8),
                    f.minCut.toNat⟩ →
                  exec (.typeDefine t f) s
                    = .next (({ s with plan := s.plan.setType t.toNat b } : State).refuse .P 0x28 .ok))))

/-! ### Plan editing (sections 7.1 and 7.2) -/

/-- Slot Load takes one to eight records in frame order, each loaded or refused whole, and answers their number and a
result code for each, under the status R128 gives (R127, R128). -/
def Obligations.SlotLoadTakesItsRecords : Prop :=
  ∀ (s : State) (rs : List LoadRecord), s.takes .P .planShaping → 1 ≤ rs.length → rs.length ≤ 8 →
    tableWf s.plan.slots → s.queueLaw → ∃ (codes : List Status) (t : State),
      s.takesRecords rs codes t ∧ codes.length = rs.length
        ∧ (0 < codes.count .ok →
            exec (.slotLoad rs) s = .next (t.reply .P 0x30 .ok (.load (codes.count .ok) codes)))
        ∧ (codes.count .ok = 0 → t = s
          ∧ ((∀ r ∈ rs, r.index.toNat ≤ 4095 → s.plan.slot? r.index.toNat ≠ none) →
              exec (.slotLoad rs) s = .next (s.reply .P 0x30 .full (.load 0 codes)))
          ∧ ((∃ r ∈ rs, r.index.toNat ≤ 4095 ∧ s.plan.slot? r.index.toNat = none) → ∀ c, codes.head? = some c →
              exec (.slotLoad rs) s = .next (s.reply .P 0x30 c (.load 0 codes))))

/-- Slot Restore writes one built slot back into a Draft wall, its tests in order, and the slots around it are re-judged
(R129, R130). -/
def Obligations.SlotRestoreWritesABuiltSlot : Prop :=
  (∀ (s : State) (ad : SlotAddress) (f : PlanFields) (l : AsLaidFields), s.takes .P .planShaping →
      s.resolve .P ad = none → exec (.slotRestore ad f l) s = .next (s.refuse .P 0x31 .badAddress))
    ∧ ∀ (s : State) (ad : SlotAddress) (i : Nat) (f : PlanFields) (l : AsLaidFields) (u : State) (a : AsLaid) (y : Slot),
    s.takes .P .planShaping → s.resolve .P ad = some i → tableWf s.plan.slots → u = s.setCursor .P i →
    a = ⟨l.left.toNat, l.right.toNat, l.topLeft.toNat, l.topRight.toNat, l.timeLaid.toNat⟩ →
    y = { recordOf f with state := .set, asLaid := some a } →
      (s.plan.slot? i ≠ none → exec (.slotRestore ad f l) s = .next (u.refuse .P 0x31 .badState))
        ∧ (s.plan.slot? i = none →
          (31 < y.wall → exec (.slotRestore ad f l) s = .next (u.refuse .P 0x31 .badValue))
          ∧ (y.wall ≤ 31 →
            ((s.plan.wall y.wall).state ≠ .draft →
              exec (.slotRestore ad f l) s = .next (u.refuse .P 0x31 .badState))
            ∧ ((s.plan.wall y.wall).state = .draft →
              (¬ s.plan.restoredLawful y f.drawn.supportCount.toNat a →
                exec (.slotRestore ad f l) s = .next (u.refuse .P 0x31 .badValue))
              ∧ (s.plan.restoredLawful y f.drawn.supportCount.toNat a → ∀ p : Plan,
                p = ((s.plan.putSlot i y).modifyWall y.wall fun w =>
                  { w with slotCount := w.slotCount + 1, laidCount := w.laidCount + 1, audited := false }) →
                  exec (.slotRestore ad f l) s = .next ((({ u with
                    plan := p
                    events := s.events.present i y .set s.clock } : State).afterJudging
                      (p.followers i ++ (y.left.toList ++ y.right.toList))).refuse .P 0x31 .ok)))))

/-- Slot Amend, its tests in order; the named fields take their new values, the others are kept, the audited flag is
cleared where a field differs, and the slot is re-judged (R131, R132). That an Amend of a slot in Fault needs no HELD in
an Open or Paused wall is the model's choice of R131 over R87: assumption 23 (DESIGN CHOICE). Bit 7 of the field set is
`FieldBytesOutOfTheirRanges`. -/
def Obligations.SlotAmendChangesTheNamedFields : Prop :=
  (∀ (s : State) (ad : SlotAddress) (bits : Byte) (f : DrawnFields), s.takes .P .planShaping →
      s.resolve .P ad = none → exec (.slotAmend ad bits f) s = .next (s.refuse .P 0x32 .badAddress))
    ∧ ∀ (s : State) (ad : SlotAddress) (i : Nat) (bits : Byte) (f : DrawnFields) (u : State),
    s.takes .P .planShaping → s.resolve .P ad = some i → tableWf s.plan.slots → u = s.setCursor .P i →
    bits.getLsbD 7 = false →
      (s.plan.slot? i = none → exec (.slotAmend ad bits f) s = .next (u.refuse .P 0x32 .badState))
        ∧ ∀ x, s.plan.slot? i = some x → ∀ live : Prop,
          (live ↔ (s.plan.wall x.wall).state = .opened ∨ (s.plan.wall x.wall).state = .paused) →
          (x.state = .claimed → exec (.slotAmend ad bits f) s = .next (u.refuse .P 0x32 .inFlight))
            ∧ (x.state ≠ .claimed → live → x.state ≠ .fault → s.held = false →
              exec (.slotAmend ad bits f) s = .next (u.refuse .P 0x32 .notHeld))
            ∧ (x.state = .set ∨ x.state = .suspect ∨ x.state = .retired → ¬ live ∨ s.held = true →
              exec (.slotAmend ad bits f) s = .next (u.refuse .P 0x32 .badState))
            ∧ (x.state = .planned ∨ x.state = .ready ∨ x.state = .fault →
              ¬ live ∨ x.state = .fault ∨ s.held = true → ∀ (y : Slot) (n : Nat), y = x.amendedBy bits f →
              n = (if bits.getLsbD 3 then f.supportCount.toNat else x.supports.length) →
                (¬ s.plan.drawnLawful y n → exec (.slotAmend ad bits f) s = .next (u.refuse .P 0x32 .badValue))
                ∧ (s.plan.drawnLawful y n → ∃ t, t = u.afterEdit i x y
                  ∧ exec (.slotAmend ad bits f) s = .next (t.reply .P 0x32 .ok (.slotState (t.plan.stateOf i)))))

/-- Slot Delete, Withhold, Free and Clear on one slot: their tests in order, what they change and what is re-judged; a
Withhold of a withheld slot and a Free of a free one change nothing (R133 to R135). -/
def Obligations.DeleteWithholdFreeAndClear : Prop :=
  (∀ (s : State) (ad : SlotAddress), s.resolve .P ad = none →
      (s.takes .P .planShaping → exec (.slotDelete ad) s = .next (s.refuse .P 0x33 .badAddress)
        ∧ exec (.clear ad) s = .next (s.refuse .P 0x36 .badAddress))
      ∧ (s.takes .P .operational → exec (.withhold ad) s = .next (s.refuse .P 0x34 .badAddress)
        ∧ exec (.free ad) s = .next (s.refuse .P 0x35 .badAddress)))
    ∧ ∀ (s : State) (ad : SlotAddress) (i : Nat) (u : State), s.resolve .P ad = some i → tableWf s.plan.slots →
    u = s.setCursor .P i →
    (s.takes .P .planShaping →
        (s.plan.slot? i = none → exec (.slotDelete ad) s = .next (u.refuse .P 0x33 .badState)
          ∧ exec (.clear ad) s = .next (u.refuse .P 0x36 .badState))
        ∧ ∀ x, s.plan.slot? i = some x →
          ((s.plan.wall x.wall).state ≠ .draft ∨ x.state ≠ .planned →
            exec (.slotDelete ad) s = .next (u.refuse .P 0x33 .badState))
          ∧ ((s.plan.wall x.wall).state = .draft → x.state = .planned →
            exec (.slotDelete ad) s = .next (({ u with
              plan := (s.plan.eraseSlot i).modifyWall x.wall fun w =>
                { w with slotCount := w.slotCount - 1, audited := false } } : State).refuse .P 0x33 .ok))
          ∧ (x.state ≠ .fault → exec (.clear ad) s = .next (u.refuse .P 0x36 .badState))
          ∧ (x.state = .fault → ∃ t : State,
            t = ({ u with plan := s.plan.modifySlot i fun _ =>
                  { x with state := .planned, faultReason := none } } : State).afterJudging [i]
              ∧ exec (.clear ad) s = .next (t.reply .P 0x36 .ok (.slotState (t.plan.stateOf i)))))
      ∧ (s.takes .P .operational →
        (s.plan.slot? i = none → exec (.withhold ad) s = .next (u.refuse .P 0x34 .badState)
          ∧ exec (.free ad) s = .next (u.refuse .P 0x35 .badState))
        ∧ ∀ x, s.plan.slot? i = some x →
          (x.state = .claimed → exec (.withhold ad) s = .next (u.refuse .P 0x34 .inFlight)
            ∧ exec (.free ad) s = .next (u.refuse .P 0x35 .inFlight))
          ∧ (x.state ≠ .claimed →
            (x.state.laid = true ∨ x.withheld = true →
              exec (.withhold ad) s = .next (u.reply .P 0x34 .ok (.withheld x.state x.withheld)))
            ∧ (x.state.laid = true ∨ x.withheld = false →
              exec (.free ad) s = .next (u.reply .P 0x35 .ok (.withheld x.state x.withheld))))
          ∧ (x.state = .planned ∨ x.state = .ready ∨ x.state = .fault →
            (x.withheld = false → ∃ t : State,
              t = ({ u with plan := s.plan.modifySlot i fun _ => { x with withheld := true } } : State).afterJudging [i]
                ∧ exec (.withhold ad) s = .next (t.reply .P 0x34 .ok (.withheld (t.plan.stateOf i) true)))
            ∧ (x.withheld = true → ∃ t : State,
              t = ({ u with plan := s.plan.modifySlot i fun _ => { x with withheld := false } } : State).afterJudging [i]
                ∧ exec (.free ad) s = .next (t.reply .P 0x35 .ok (.withheld (t.plan.stateOf i) false)))))

/-- Accept takes a Suspect slot to Set with everything it holds, Lift takes one without built followers back to Planned
without its brick; what each re-judges, and the completion test of an Accept (R97 to R100). -/
def Obligations.AcceptAndLift : Prop :=
  (∀ (s : State) (ad : SlotAddress), s.takes .P .planShaping → s.resolve .P ad = none →
      exec (.accept ad) s = .next (s.refuse .P 0x37 .badAddress)
        ∧ exec (.lift ad) s = .next (s.refuse .P 0x38 .badAddress))
    ∧ ∀ (s : State) (ad : SlotAddress) (i : Nat) (u : State), s.takes .P .planShaping → s.resolve .P ad = some i →
    tableWf s.plan.slots → u = s.setCursor .P i →
    (s.plan.stateOf i ≠ .suspect → exec (.accept ad) s = .next (u.refuse .P 0x37 .badState)
        ∧ exec (.lift ad) s = .next (u.refuse .P 0x38 .badState))
      ∧ ∀ x, s.plan.slot? i = some x → x.state = .suspect →
        (∃ t : State,
            t = ({ u with
                plan := s.plan.modifySlot i fun _ => { x with state := .set }
                events := s.events.present i x .set s.clock } : State).afterJudging
                  (s.plan.followers i ++ (x.left.toList ++ x.right.toList))
              ∧ exec (.accept ad) s = .next ((t.afterCompletion x.wall).reply .P 0x37 .ok
                (.accepted .set (decide (∀ e ∈ t.plan.slots, e.2.wall = x.wall → e.2.state = .set)))))
          ∧ ((∃ j y, s.plan.slot? j = some y ∧ i ∈ y.supports ∧ (y.state = .claimed ∨ y.state.laid = true)) →
            exec (.lift ad) s = .next (u.refuse .P 0x38 .hasFollowers))
          ∧ ((∀ j y, s.plan.slot? j = some y → i ∈ y.supports → y.state ≠ .claimed ∧ y.state.laid = false) →
            ∃ t : State,
              t = ({ u with plan := (s.plan.modifySlot i fun _ => { x with
                      state := .planned, asLaid := none, late := false
                      target := none, openLeft := false, corrected := false }).modifyWall x.wall fun w =>
                        { w with laidCount := w.laidCount - 1, complete := false } } : State).afterJudging
                    (i :: (x.left.toList ++ x.right.toList))
                ∧ exec (.lift ad) s = .next (t.reply .P 0x38 .ok (.slotState (t.plan.stateOf i))))

/-! ### Sweeps and audits (sections 7.3 to 7.5) -/

/-- A Sweep, its tests in order: an address, operand or code out of its range refuses it; else the engine's context is
written and nothing is answered yet (R136, R137, R174). A Sweep whose operation byte names no operation is admitted as
operational and refused with BadValue (R150); that SWEEP_WITHHOLD carries it is assumption 9 (DESIGN CHOICE). -/
def Obligations.SweepIsTaken : Prop :=
  (∀ (s : State) (f : SweepFields) (b : Byte), 3 < b.toNat → s.takes .P .operational →
      (s.resolve .P f.start = none → exec (.sweepWithhold b f) s = .next (s.refuse .P 0x10 .badAddress))
        ∧ ∀ i, s.resolve .P f.start = some i →
          exec (.sweepWithhold b f) s = .next ((s.setCursor .P i).refuse .P 0x10 .badValue))
    ∧ ∀ (s : State) (f : SweepFields) (c : Instr) (k : CommandClass) (op : SweepOp), s.takes .P k →
      (c = .sweepWithhold 0#8 f ∧ k = .operational ∧ op = .withhold)
        ∨ (c = .sweepFree f ∧ k = .operational ∧ op = .free)
        ∨ (c = .sweepShift f ∧ k = .planShaping ∧ op = .shift f.deltaOrType.toInt)
        ∨ (c = .sweepRetype f ∧ k = .planShaping ∧ op = .retype (f.deltaOrType.toNat % 256)) →
      (s.resolve .P f.start = none → exec c s = .next (s.refuse .P 0x10 .badAddress))
        ∧ ∀ i, s.resolve .P f.start = some i →
          (4096 < f.count.toNat ∨ 1 < f.direction.toNat ∨ 2 < f.condition.toNat
              ∨ (f.condition ≠ 0#8 ∧ 7 < f.state.toNat)
              ∨ (∃ d, op = .shift d ∧ (d < -10000 ∨ 10000 < d))
              ∨ (∃ t, op = .retype t ∧ (63 < t ∨ (s.plan.brickType t).defined = false)) →
            exec c s = .next ((s.setCursor .P i).refuse .P 0x10 .badValue))
          ∧ ∀ (n : Nat) (d : Direction) (w : SweepCondition),
            n = (if f.count.toNat = 0 then 4096 else f.count.toNat) → n ≤ 4096 →
            (f.direction.toNat = 0 ∧ d = .up) ∨ (f.direction.toNat = 1 ∧ d = .down) →
            (f.condition.toNat = 0 ∧ w = .always)
              ∨ (∃ st : SlotState, st.code = f.state.toNat
                ∧ ((f.condition.toNat = 1 ∧ w = .whileIn st) ∨ (f.condition.toNat = 2 ∧ w = .untilIn st))) →
            (∀ v, op = .shift v → -10000 ≤ v ∧ v ≤ 10000) →
            (∀ t, op = .retype t → t ≤ 63 ∧ (s.plan.brickType t).defined = true) →
              exec c s = .next (({ s.setCursor .P i with
                engine := .sweep ⟨i, n, d, op, w, none, false⟩ } : State).release .P)

/-- A sweep's step takes the tests of R138 in their order, and a Withhold or Free step acts on its slot by its state
(R138, R139); an ending removes the context and its response falls due (R141). -/
def Obligations.SweepStepTakesItsTests : Prop :=
  ∀ (s : State) (c : SweepContext), s.engine = .sweep c →
    (c.abortPending = true → exec .sweepStep s = .next (s.sweepEnded c .aborted .aborted))
      ∧ (c.abortPending = false →
        (c.remaining = 0 → exec .sweepStep s = .next (s.sweepEnded c .done .ok))
        ∧ (c.remaining ≠ 0 →
          (c.index < 0 ∨ 4095 < c.index → exec .sweepStep s = .next (s.sweepEnded c .edge .edge))
          ∧ ∀ i : Nat, c.index = (i : Int) → i ≤ 4095 → ∀ st : SlotState,
            (c.condition = .whileIn st → s.plan.stateOf i ≠ st →
              exec .sweepStep s = .next (s.sweepEnded c .condEnd .ok))
            ∧ (c.condition = .untilIn st → s.plan.stateOf i = st →
              exec .sweepStep s = .next (s.sweepEnded c .condEnd .ok))))
      ∧ ∀ (i : Nat) (flag : Bool), s.sweepReaches c i → c.op = (if flag then .withhold else .free) →
        tableWf s.plan.slots →
          (s.plan.slot? i = none → exec .sweepStep s = .next (s.sweepProcessed c i))
          ∧ ∀ x, s.plan.slot? i = some x →
            (x.state = .claimed → exec .sweepStep s = .next (s.sweepEnded c .inFlight .inFlight))
            ∧ (x.state ≠ .claimed → exec .sweepStep s = .next ((s.afterWithheld i x flag).sweepProcessed c i))

/-- A Shift or Retype step, its tests in order, and the edit it makes: an Empty slot is passed over, a field that changes
clears the audited flag, a Ready slot is re-judged and a Planned or Fault slot keeps its state (R138, R140, R141). That a
Ready slot which fails a condition becomes Planned by R27 is assumption 22 (DEDUCED). -/
def Obligations.SweepStepEdits : Prop :=
  ∀ (s : State) (c : SweepContext) (i : Nat), s.sweepReaches c i → tableWf s.plan.slots →
    (∃ d, c.op = .shift d) ∨ (∃ t, c.op = .retype t) →
    (s.plan.slot? i = none → exec .sweepStep s = .next (s.sweepProcessed c i))
    ∧ ∀ x, s.plan.slot? i = some x → ∀ live : Prop,
    (live ↔ (s.plan.wall x.wall).state = .opened ∨ (s.plan.wall x.wall).state = .paused) →
      (x.state = .claimed → exec .sweepStep s = .next (s.sweepEnded c .inFlight .inFlight))
        ∧ (x.state.laid = true → exec .sweepStep s = .next (s.sweepEnded c .badState .badState))
        ∧ (x.state = .planned ∨ x.state = .ready ∨ x.state = .fault →
          (live → s.held = false → exec .sweepStep s = .next (s.sweepEnded c .notHeld .notHeld))
          ∧ (¬ live ∨ s.held = true →
            (∀ d, c.op = .shift d →
              ((x.designLeft : Int) + d < 0 ∨ 200000 < (x.designLeft : Int) + d →
                exec .sweepStep s = .next (s.sweepEnded c .badValue .badValue))
              ∧ ∀ v : Nat, (v : Int) = x.designLeft + d → v ≤ 200000 →
                (d = 0 → exec .sweepStep s = .next (s.sweepProcessed c i))
                ∧ (d ≠ 0 → exec .sweepStep s
                  = .next ((s.afterSweepChange i x { x with designLeft := v }).sweepProcessed c i)))
            ∧ ∀ t, c.op = .retype t →
              ((∃ n, x.planCut = some n
                  ∧ (n < (s.plan.brickType t).minCut ∨ (s.plan.brickType t).length < n)) →
                exec .sweepStep s = .next (s.sweepEnded c .badValue .badValue))
              ∧ ((∀ n, x.planCut = some n →
                  (s.plan.brickType t).minCut ≤ n ∧ n ≤ (s.plan.brickType t).length) →
                (x.type = t → exec .sweepStep s = .next (s.sweepProcessed c i))
                ∧ (x.type ≠ t → exec .sweepStep s
                  = .next ((s.afterSweepChange i x { x with type := t }).sweepProcessed c i)))))

/-- An Audit is taken, steps through the slots of its wall in ascending index order, and ends by an abort, a pass or the
first failing check of a slot; Abort sets the pending flag of what runs (R143 to R145, R147). -/
def Obligations.AuditAndAbort : Prop :=
  (∀ (s : State) (w : Byte), s.takes .P .read →
      (31 < w.toNat → exec (.audit w) s = .next (s.refuse .P 0x0F .badAddress))
      ∧ (w.toNat ≤ 31 → (s.plan.wall w.toNat).state = .free →
        exec (.audit w) s = .next (s.refuse .P 0x0F .badState))
      ∧ (w.toNat ≤ 31 → (s.plan.wall w.toNat).state ≠ .free →
        exec (.audit w) s = .next (({ s with engine := .audit ⟨w.toNat, none, false⟩ } : State).release .P)))
    ∧ (∀ (s : State) (c : AuditContext) (left : List (Nat × Slot)), s.engine = .audit c → tableWf s.plan.slots →
      left = (s.plan.slots.filter fun e => e.2.wall = c.wall ∧ ∀ l ∈ c.last, l < e.1) →
        (c.abortPending = true →
          exec .auditStep s = .next (s.auditEnded .aborted (.auditAborted c.last left.length)))
        ∧ (c.abortPending = false →
          (left = [] → exec .auditStep s = .next (({ s with
            plan := s.plan.modifyWall c.wall fun x => { x with audited := true } } : State).auditEnded .ok
              (.auditPass (s.plan.slots.filter fun e => e.2.wall = c.wall).length)))
          ∧ ∀ i x, left.head? = some (i, x) →
            ((∀ r, ¬ s.plan.failsCheck i x r) →
              exec .auditStep s = .next { s with engine := .audit { c with last := some i } })
            ∧ ∀ (n : Nat) (r : AuditFailure), auditOrder[n]? = some r → s.plan.failsCheck i x r →
              (∀ m q, m < n → auditOrder[m]? = some q → ¬ s.plan.failsCheck i x q) →
                exec .auditStep s = .next (s.auditEnded .auditFail (.auditFail r i
                  (s.plan.slots.filter fun e => e.2.wall = c.wall ∧ i < e.1).length))))
    ∧ ∀ s : State,
      (s.engine = .idle → exec .abort s = .next (s.refuse .P 0x11 .notBusy))
      ∧ (∀ c, s.engine = .sweep c → exec .abort s
        = .next (({ s with engine := .sweep { c with abortPending := true } } : State).refuse .P 0x11 .ok))
      ∧ ∀ c, s.engine = .audit c → exec .abort s
        = .next (({ s with engine := .audit { c with abortPending := true } } : State).refuse .P 0x11 .ok)

/-! ### Resets -/

/-- A line reset: the line empties, each carrier's slot returns to Planned or, from a Faulted carrier, to Fault, the
station is None with every bin available and no slot Ready, the conditions record is stale with its gates Closed, port
M's latches are clear and its receiver hunts; everything else stands (R44, R69, R70, R126, R169, R170). -/
def Obligations.LineResetLeaves : Prop :=
  ∀ s : State, tableWf s.plan.slots → s.lineLaw → ∃ t : State, exec .lineReset s = .next t
    ∧ t = { s with
        plan := { s.plan with slots := t.plan.slots }
        dispatcher := { s.dispatcher with queue := [], station := none, binEmpty := 0 }
        line := []
        conditions := { s.conditions with stale := true, glue := .closed, exposure := .closed, stop := .closed }
        events := { s.events.presentAll s.faultedSlots .fault s.clock with
          planFault := s.events.planFault || s.stopx
          expiry := false
          gateChange := false
          stale := false }
        portM := { s.portM with receiver := .hunting } }
    ∧ t.stopx = false ∧ (t.held = true ↔ s.dispatcher.hold = true) ∧ t.attnM = false
    ∧ (∀ i, s.plan.slot? i = none → t.plan.slot? i = none)
    ∧ (∀ i x, s.plan.slot? i = some x →
      (x.state = .ready → t.plan.slot? i = some { x with state := .planned })
      ∧ (x.state ≠ .ready → x.state ≠ .claimed → t.plan.slot? i = some x))
    ∧ ∀ c ∈ s.line, ∀ x, s.plan.slot? c.slot = some x → ∀ y : Slot,
      y = { x with tag := none, target := none, openLeft := false, corrected := false } →
        (c.stage = .faulted →
          t.plan.slot? c.slot = some { y with state := .fault, faultReason := some .drift })
        ∧ (c.stage ≠ .faulted → t.plan.slot? c.slot = some { y with state := .planned })

/-- Power-on reset is taken in every state: it leaves every table, record and context at its reset value but for the
stored code, and the state right after reset is such a state, of a part as it leaves the factory, and meets every law. The
ESTOP input and what waits outside the part stand: assumptions 1, 3, 6 and 7; that the slot table is Empty after a
reset that ends a sweep as after any other is assumption 24 (DESIGN CHOICE). -/
def Obligations.PowerOnResetLeaves : Prop :=
  (∀ s : State, ∃ t : State, exec .powerOnReset s = .next t
    ∧ (∀ i, t.plan.slot? i = none)
    ∧ (∀ w, t.plan.wall w = { state := .free, params := ⟨0, 0, 0, 0, 0, 0, 0, 0, 0, 0, 0⟩, priority := 0,
                              audited := false, complete := false, slotCount := 0, laidCount := 0 })
    ∧ (∀ b, t.plan.brickType b = { defined := false, length := 0, height := 0, bin := 0, cuttable := false,
                                   minCut := 0 })
    ∧ t.dispatcher = { queue := [], station := none, hold := false, binEmpty := 0 }
    ∧ t.line = [] ∧ t.clock = none
    ∧ t.conditions = { temperature := 20, wind := 0, lastReport := none, stale := true, range := false, glue := .closed,
                       exposure := .closed, stop := .closed }
    ∧ (∀ k, t.options.valueOf k = match k with
        | 1 => 900
        | 2 => 40
        | 3 => 2
        | 4 => 40
        | 5 => 40
        | 6 => 30
        | 7 => 60
        | 8 => 50
        | 9 => 20000
        | _ => 0)
    ∧ t.engine = .idle
    ∧ t.authority = { code := s.authority.code, level := if s.authority.code = none then .engineer else .operator,
                      attempts := 5, frozen := false, epl := .operator }
    ∧ (∀ p, (∀ k : Nat, (t.events.latches p)[k]? ≠ some true) ∧ (∀ k : Nat, (t.events.masks p)[k]? ≠ some false)
      ∧ t.attention p = false)
    ∧ (∀ k : Nat, k < 8 → t.events.watches[k]? = some
        { enabled := false, wall := none, course := none, entered := .ready, mode := .every, latched := false, count := 0,
          lastSlot := none, lastTime := none })
    ∧ (∀ p, t.port p = { cursor := 0, receiver := .hunting, sent := [], waiting := none, behind := none })
    ∧ t.held = false ∧ t.stopx = false
    ∧ t.estop = s.estop ∧ t.inputs = s.inputs ∧ t.pending = s.pending)
    ∧ exec .powerOnReset State.reset = .next State.reset
    ∧ State.reset.authority.code = none ∧ State.reset.estop = false ∧ State.reset.inputs = [] ∧ State.reset.pending = []
    ∧ State.reset.Consistent ∧ State.reset.faultedLaw ∧ State.reset.plan.partsLaw ∧ State.reset.plan.countsLaw
    ∧ State.reset.plan.paramsLaw ∧ State.reset.weatherLaw ∧ State.reset.options.lawful
    ∧ State.reset.authority.lawful ∧ State.reset.events.lawful ∧ State.reset.cursorLaw ∧ State.reset.clockRange

/-! ### The whole machine -/

/-- From every state that meets the laws of the tables, the queue and the boom line, a step leads to one that meets them;
and a Faulted carrier stays the front carrier (R9, R38, R46, R54, R56, R57, R89). -/
def Obligations.StepKeepsConsistent : Prop :=
  ∀ s t : State, s.Consistent → step s = .next t → t.Consistent ∧ (s.faultedLaw → t.faultedLaw)

/-- Nothing stops the part: in a state that meets the laws, every command of the table that its row describes has its
effect, and every step leads on. That the waiting commands come to be taken one a step is assumption 1. -/
def Obligations.NoCommandStops : Prop :=
  (∀ (s : State) (c : Instr), s.Consistent → c.wellFormed = true → Completes (exec c s))
    ∧ ∀ s : State, s.Consistent → (∀ c, s.pending.head? = some c → c.wellFormed = true) → Completes (step s)

/-- From every state that meets the laws, a step keeps the optional parts of every slot those its state calls for, and the
counts of every wall those of the slot table (R4 to R6, R9). -/
def Obligations.StepKeepsPartsAndCounts : Prop :=
  ∀ s t : State, s.Consistent → step s = .next t →
    (s.plan.partsLaw → t.plan.partsLaw) ∧ (s.plan.countsLaw → t.plan.countsLaw)
end

