-- ==== Sys2Proof/Laws/State.lean ====
section
/-! SUPPORT. The named updates of the state, field by field: what each writes, and that it leaves every other field.
Each is true by unfolding the one update; later proofs cite these and unfold no record update. -/

namespace Sys2Proof.Machine

open Sys2Proof

/-! ### What each update leaves -/

/-- Every watch record changes by one rule. -/
theorem eachWatch_eq (f : Watch → Watch) (v : Vector Watch Config.watchCount) : eachWatch f v = v.map f := by
  apply Vector.toArray_inj.1
  simp only [eachWatch, Vector.toArray_map]
  rw [← Array.toList_inj]
  simp only [Array.toList_map]
  rfl

/-- Each watch after a slot is presented: matched where it fits, else as it was (R159). -/
theorem Events.present_getElem? (i : Nat) (x : Slot) (st : SlotState) (time : Option Nat) (e : Events) (k : Nat) :
    (e.present i x st time).watches[k]? = e.watches[k]?.map fun w => if w.fits x st then w.record i time else w := by
  simp [Events.present, eachWatch_eq]

@[simp] theorem State.setPort_plan (s : State) (p : Port) (x : PortState) :
    (s.setPort p x).plan = s.plan := by cases p <;> rfl
@[simp] theorem State.setPort_dispatcher (s : State) (p : Port) (x : PortState) :
    (s.setPort p x).dispatcher = s.dispatcher := by cases p <;> rfl
@[simp] theorem State.setPort_line (s : State) (p : Port) (x : PortState) :
    (s.setPort p x).line = s.line := by cases p <;> rfl
@[simp] theorem State.setPort_clock (s : State) (p : Port) (x : PortState) :
    (s.setPort p x).clock = s.clock := by cases p <;> rfl
@[simp] theorem State.setPort_conditions (s : State) (p : Port) (x : PortState) :
    (s.setPort p x).conditions = s.conditions := by cases p <;> rfl
@[simp] theorem State.setPort_options (s : State) (p : Port) (x : PortState) :
    (s.setPort p x).options = s.options := by cases p <;> rfl
@[simp] theorem State.setPort_engine (s : State) (p : Port) (x : PortState) :
    (s.setPort p x).engine = s.engine := by cases p <;> rfl
@[simp] theorem State.setPort_authority (s : State) (p : Port) (x : PortState) :
    (s.setPort p x).authority = s.authority := by cases p <;> rfl
@[simp] theorem State.setPort_events (s : State) (p : Port) (x : PortState) :
    (s.setPort p x).events = s.events := by cases p <;> rfl
@[simp] theorem State.setPort_estop (s : State) (p : Port) (x : PortState) :
    (s.setPort p x).estop = s.estop := by cases p <;> rfl
@[simp] theorem State.setPort_inputs (s : State) (p : Port) (x : PortState) :
    (s.setPort p x).inputs = s.inputs := by cases p <;> rfl
@[simp] theorem State.setPort_pending (s : State) (p : Port) (x : PortState) :
    (s.setPort p x).pending = s.pending := by cases p <;> rfl

@[simp] theorem State.reply_plan (s : State) (p : Port) (c : Byte) (st : Status) (b : Body) :
    (s.reply p c st b).plan = s.plan := by cases p <;> rfl
@[simp] theorem State.reply_dispatcher (s : State) (p : Port) (c : Byte) (st : Status) (b : Body) :
    (s.reply p c st b).dispatcher = s.dispatcher := by cases p <;> rfl
@[simp] theorem State.reply_line (s : State) (p : Port) (c : Byte) (st : Status) (b : Body) :
    (s.reply p c st b).line = s.line := by cases p <;> rfl
@[simp] theorem State.reply_clock (s : State) (p : Port) (c : Byte) (st : Status) (b : Body) :
    (s.reply p c st b).clock = s.clock := by cases p <;> rfl
@[simp] theorem State.reply_conditions (s : State) (p : Port) (c : Byte) (st : Status) (b : Body) :
    (s.reply p c st b).conditions = s.conditions := by cases p <;> rfl
@[simp] theorem State.reply_options (s : State) (p : Port) (c : Byte) (st : Status) (b : Body) :
    (s.reply p c st b).options = s.options := by cases p <;> rfl
@[simp] theorem State.reply_engine (s : State) (p : Port) (c : Byte) (st : Status) (b : Body) :
    (s.reply p c st b).engine = s.engine := by cases p <;> rfl
@[simp] theorem State.reply_authority (s : State) (p : Port) (c : Byte) (st : Status) (b : Body) :
    (s.reply p c st b).authority = s.authority := by cases p <;> rfl
@[simp] theorem State.reply_events (s : State) (p : Port) (c : Byte) (st : Status) (b : Body) :
    (s.reply p c st b).events = s.events := by cases p <;> rfl
@[simp] theorem State.reply_estop (s : State) (p : Port) (c : Byte) (st : Status) (b : Body) :
    (s.reply p c st b).estop = s.estop := by cases p <;> rfl
@[simp] theorem State.reply_inputs (s : State) (p : Port) (c : Byte) (st : Status) (b : Body) :
    (s.reply p c st b).inputs = s.inputs := by cases p <;> rfl
@[simp] theorem State.reply_pending (s : State) (p : Port) (c : Byte) (st : Status) (b : Body) :
    (s.reply p c st b).pending = s.pending := by cases p <;> rfl

@[simp] theorem State.refuse_plan (s : State) (p : Port) (c : Byte) (st : Status) :
    (s.refuse p c st).plan = s.plan := by cases p <;> rfl
@[simp] theorem State.refuse_dispatcher (s : State) (p : Port) (c : Byte) (st : Status) :
    (s.refuse p c st).dispatcher = s.dispatcher := by cases p <;> rfl
@[simp] theorem State.refuse_line (s : State) (p : Port) (c : Byte) (st : Status) :
    (s.refuse p c st).line = s.line := by cases p <;> rfl
@[simp] theorem State.refuse_clock (s : State) (p : Port) (c : Byte) (st : Status) :
    (s.refuse p c st).clock = s.clock := by cases p <;> rfl
@[simp] theorem State.refuse_conditions (s : State) (p : Port) (c : Byte) (st : Status) :
    (s.refuse p c st).conditions = s.conditions := by cases p <;> rfl
@[simp] theorem State.refuse_options (s : State) (p : Port) (c : Byte) (st : Status) :
    (s.refuse p c st).options = s.options := by cases p <;> rfl
@[simp] theorem State.refuse_engine (s : State) (p : Port) (c : Byte) (st : Status) :
    (s.refuse p c st).engine = s.engine := by cases p <;> rfl
@[simp] theorem State.refuse_authority (s : State) (p : Port) (c : Byte) (st : Status) :
    (s.refuse p c st).authority = s.authority := by cases p <;> rfl
@[simp] theorem State.refuse_events (s : State) (p : Port) (c : Byte) (st : Status) :
    (s.refuse p c st).events = s.events := by cases p <;> rfl
@[simp] theorem State.refuse_estop (s : State) (p : Port) (c : Byte) (st : Status) :
    (s.refuse p c st).estop = s.estop := by cases p <;> rfl
@[simp] theorem State.refuse_inputs (s : State) (p : Port) (c : Byte) (st : Status) :
    (s.refuse p c st).inputs = s.inputs := by cases p <;> rfl
@[simp] theorem State.refuse_pending (s : State) (p : Port) (c : Byte) (st : Status) :
    (s.refuse p c st).pending = s.pending := by cases p <;> rfl

@[simp] theorem State.setCursor_plan (s : State) (p : Port) (i : Nat) :
    (s.setCursor p i).plan = s.plan := by cases p <;> rfl
@[simp] theorem State.setCursor_dispatcher (s : State) (p : Port) (i : Nat) :
    (s.setCursor p i).dispatcher = s.dispatcher := by cases p <;> rfl
@[simp] theorem State.setCursor_line (s : State) (p : Port) (i : Nat) :
    (s.setCursor p i).line = s.line := by cases p <;> rfl
@[simp] theorem State.setCursor_clock (s : State) (p : Port) (i : Nat) :
    (s.setCursor p i).clock = s.clock := by cases p <;> rfl
@[simp] theorem State.setCursor_conditions (s : State) (p : Port) (i : Nat) :
    (s.setCursor p i).conditions = s.conditions := by cases p <;> rfl
@[simp] theorem State.setCursor_options (s : State) (p : Port) (i : Nat) :
    (s.setCursor p i).options = s.options := by cases p <;> rfl
@[simp] theorem State.setCursor_engine (s : State) (p : Port) (i : Nat) :
    (s.setCursor p i).engine = s.engine := by cases p <;> rfl
@[simp] theorem State.setCursor_authority (s : State) (p : Port) (i : Nat) :
    (s.setCursor p i).authority = s.authority := by cases p <;> rfl
@[simp] theorem State.setCursor_events (s : State) (p : Port) (i : Nat) :
    (s.setCursor p i).events = s.events := by cases p <;> rfl
@[simp] theorem State.setCursor_estop (s : State) (p : Port) (i : Nat) :
    (s.setCursor p i).estop = s.estop := by cases p <;> rfl
@[simp] theorem State.setCursor_inputs (s : State) (p : Port) (i : Nat) :
    (s.setCursor p i).inputs = s.inputs := by cases p <;> rfl
@[simp] theorem State.setCursor_pending (s : State) (p : Port) (i : Nat) :
    (s.setCursor p i).pending = s.pending := by cases p <;> rfl

@[simp] theorem State.setReceiver_plan (s : State) (p : Port) (r : Receiver) :
    (s.setReceiver p r).plan = s.plan := by cases p <;> rfl
@[simp] theorem State.setReceiver_dispatcher (s : State) (p : Port) (r : Receiver) :
    (s.setReceiver p r).dispatcher = s.dispatcher := by cases p <;> rfl
@[simp] theorem State.setReceiver_line (s : State) (p : Port) (r : Receiver) :
    (s.setReceiver p r).line = s.line := by cases p <;> rfl
@[simp] theorem State.setReceiver_clock (s : State) (p : Port) (r : Receiver) :
    (s.setReceiver p r).clock = s.clock := by cases p <;> rfl
@[simp] theorem State.setReceiver_conditions (s : State) (p : Port) (r : Receiver) :
    (s.setReceiver p r).conditions = s.conditions := by cases p <;> rfl
@[simp] theorem State.setReceiver_options (s : State) (p : Port) (r : Receiver) :
    (s.setReceiver p r).options = s.options := by cases p <;> rfl
@[simp] theorem State.setReceiver_engine (s : State) (p : Port) (r : Receiver) :
    (s.setReceiver p r).engine = s.engine := by cases p <;> rfl
@[simp] theorem State.setReceiver_authority (s : State) (p : Port) (r : Receiver) :
    (s.setReceiver p r).authority = s.authority := by cases p <;> rfl
@[simp] theorem State.setReceiver_events (s : State) (p : Port) (r : Receiver) :
    (s.setReceiver p r).events = s.events := by cases p <;> rfl
@[simp] theorem State.setReceiver_estop (s : State) (p : Port) (r : Receiver) :
    (s.setReceiver p r).estop = s.estop := by cases p <;> rfl
@[simp] theorem State.setReceiver_inputs (s : State) (p : Port) (r : Receiver) :
    (s.setReceiver p r).inputs = s.inputs := by cases p <;> rfl
@[simp] theorem State.setReceiver_pending (s : State) (p : Port) (r : Receiver) :
    (s.setReceiver p r).pending = s.pending := by cases p <;> rfl

@[simp] theorem State.release_plan (s : State) (p : Port) : (s.release p).plan = s.plan := by cases p <;> rfl
@[simp] theorem State.release_dispatcher (s : State) (p : Port) : (s.release p).dispatcher = s.dispatcher := by cases p <;> rfl
@[simp] theorem State.release_line (s : State) (p : Port) : (s.release p).line = s.line := by cases p <;> rfl
@[simp] theorem State.release_clock (s : State) (p : Port) : (s.release p).clock = s.clock := by cases p <;> rfl
@[simp] theorem State.release_conditions (s : State) (p : Port) : (s.release p).conditions = s.conditions := by cases p <;> rfl
@[simp] theorem State.release_options (s : State) (p : Port) : (s.release p).options = s.options := by cases p <;> rfl
@[simp] theorem State.release_engine (s : State) (p : Port) : (s.release p).engine = s.engine := by cases p <;> rfl
@[simp] theorem State.release_authority (s : State) (p : Port) : (s.release p).authority = s.authority := by cases p <;> rfl
@[simp] theorem State.release_events (s : State) (p : Port) : (s.release p).events = s.events := by cases p <;> rfl
@[simp] theorem State.release_estop (s : State) (p : Port) : (s.release p).estop = s.estop := by cases p <;> rfl
@[simp] theorem State.release_inputs (s : State) (p : Port) : (s.release p).inputs = s.inputs := by cases p <;> rfl
@[simp] theorem State.release_pending (s : State) (p : Port) : (s.release p).pending = s.pending := by cases p <;> rfl

@[simp] theorem State.discardFrame_plan (s : State) (p : Port) : (s.discardFrame p).plan = s.plan := by cases p <;> rfl
@[simp] theorem State.discardFrame_dispatcher (s : State) (p : Port) : (s.discardFrame p).dispatcher = s.dispatcher := by cases p <;> rfl
@[simp] theorem State.discardFrame_line (s : State) (p : Port) : (s.discardFrame p).line = s.line := by cases p <;> rfl
@[simp] theorem State.discardFrame_clock (s : State) (p : Port) : (s.discardFrame p).clock = s.clock := by cases p <;> rfl
@[simp] theorem State.discardFrame_conditions (s : State) (p : Port) : (s.discardFrame p).conditions = s.conditions := by cases p <;> rfl
@[simp] theorem State.discardFrame_options (s : State) (p : Port) : (s.discardFrame p).options = s.options := by cases p <;> rfl
@[simp] theorem State.discardFrame_engine (s : State) (p : Port) : (s.discardFrame p).engine = s.engine := by cases p <;> rfl
@[simp] theorem State.discardFrame_authority (s : State) (p : Port) : (s.discardFrame p).authority = s.authority := by cases p <;> rfl
@[simp] theorem State.discardFrame_events (s : State) (p : Port) : (s.discardFrame p).events = s.events := by cases p <;> rfl
@[simp] theorem State.discardFrame_estop (s : State) (p : Port) : (s.discardFrame p).estop = s.estop := by cases p <;> rfl
@[simp] theorem State.discardFrame_inputs (s : State) (p : Port) : (s.discardFrame p).inputs = s.inputs := by cases p <;> rfl
@[simp] theorem State.discardFrame_pending (s : State) (p : Port) : (s.discardFrame p).pending = s.pending := by cases p <;> rfl

@[simp] theorem State.dueOnPlanPort_plan (s : State) (r : Response) : (s.dueOnPlanPort r).plan = s.plan := rfl
@[simp] theorem State.dueOnPlanPort_dispatcher (s : State) (r : Response) :
    (s.dueOnPlanPort r).dispatcher = s.dispatcher := rfl
@[simp] theorem State.dueOnPlanPort_line (s : State) (r : Response) : (s.dueOnPlanPort r).line = s.line := rfl
@[simp] theorem State.dueOnPlanPort_clock (s : State) (r : Response) : (s.dueOnPlanPort r).clock = s.clock := rfl
@[simp] theorem State.dueOnPlanPort_conditions (s : State) (r : Response) :
    (s.dueOnPlanPort r).conditions = s.conditions := rfl
@[simp] theorem State.dueOnPlanPort_options (s : State) (r : Response) : (s.dueOnPlanPort r).options = s.options := rfl
@[simp] theorem State.dueOnPlanPort_engine (s : State) (r : Response) : (s.dueOnPlanPort r).engine = s.engine := rfl
@[simp] theorem State.dueOnPlanPort_authority (s : State) (r : Response) :
    (s.dueOnPlanPort r).authority = s.authority := rfl
@[simp] theorem State.dueOnPlanPort_events (s : State) (r : Response) : (s.dueOnPlanPort r).events = s.events := rfl
@[simp] theorem State.dueOnPlanPort_portM (s : State) (r : Response) : (s.dueOnPlanPort r).portM = s.portM := rfl
@[simp] theorem State.dueOnPlanPort_estop (s : State) (r : Response) : (s.dueOnPlanPort r).estop = s.estop := rfl
@[simp] theorem State.dueOnPlanPort_inputs (s : State) (r : Response) : (s.dueOnPlanPort r).inputs = s.inputs := rfl
@[simp] theorem State.dueOnPlanPort_pending (s : State) (r : Response) : (s.dueOnPlanPort r).pending = s.pending := rfl

@[simp] theorem State.modifySlot_dispatcher (s : State) (i : Nat) (f : Slot → Slot) :
    (s.modifySlot i f).dispatcher = s.dispatcher := rfl
@[simp] theorem State.modifySlot_line (s : State) (i : Nat) (f : Slot → Slot) : (s.modifySlot i f).line = s.line := rfl
@[simp] theorem State.modifySlot_clock (s : State) (i : Nat) (f : Slot → Slot) :
    (s.modifySlot i f).clock = s.clock := rfl
@[simp] theorem State.modifySlot_conditions (s : State) (i : Nat) (f : Slot → Slot) :
    (s.modifySlot i f).conditions = s.conditions := rfl
@[simp] theorem State.modifySlot_options (s : State) (i : Nat) (f : Slot → Slot) :
    (s.modifySlot i f).options = s.options := rfl
@[simp] theorem State.modifySlot_engine (s : State) (i : Nat) (f : Slot → Slot) :
    (s.modifySlot i f).engine = s.engine := rfl
@[simp] theorem State.modifySlot_authority (s : State) (i : Nat) (f : Slot → Slot) :
    (s.modifySlot i f).authority = s.authority := rfl
@[simp] theorem State.modifySlot_events (s : State) (i : Nat) (f : Slot → Slot) :
    (s.modifySlot i f).events = s.events := rfl
@[simp] theorem State.modifySlot_portP (s : State) (i : Nat) (f : Slot → Slot) :
    (s.modifySlot i f).portP = s.portP := rfl
@[simp] theorem State.modifySlot_portM (s : State) (i : Nat) (f : Slot → Slot) :
    (s.modifySlot i f).portM = s.portM := rfl
@[simp] theorem State.modifySlot_estop (s : State) (i : Nat) (f : Slot → Slot) :
    (s.modifySlot i f).estop = s.estop := rfl
@[simp] theorem State.modifySlot_inputs (s : State) (i : Nat) (f : Slot → Slot) :
    (s.modifySlot i f).inputs = s.inputs := rfl
@[simp] theorem State.modifySlot_pending (s : State) (i : Nat) (f : Slot → Slot) :
    (s.modifySlot i f).pending = s.pending := rfl

@[simp] theorem State.putSlot_dispatcher (s : State) (i : Nat) (x : Slot) :
    (s.putSlot i x).dispatcher = s.dispatcher := rfl
@[simp] theorem State.putSlot_line (s : State) (i : Nat) (x : Slot) : (s.putSlot i x).line = s.line := rfl
@[simp] theorem State.putSlot_clock (s : State) (i : Nat) (x : Slot) : (s.putSlot i x).clock = s.clock := rfl
@[simp] theorem State.putSlot_conditions (s : State) (i : Nat) (x : Slot) :
    (s.putSlot i x).conditions = s.conditions := rfl
@[simp] theorem State.putSlot_options (s : State) (i : Nat) (x : Slot) : (s.putSlot i x).options = s.options := rfl
@[simp] theorem State.putSlot_engine (s : State) (i : Nat) (x : Slot) : (s.putSlot i x).engine = s.engine := rfl
@[simp] theorem State.putSlot_authority (s : State) (i : Nat) (x : Slot) :
    (s.putSlot i x).authority = s.authority := rfl
@[simp] theorem State.putSlot_events (s : State) (i : Nat) (x : Slot) : (s.putSlot i x).events = s.events := rfl
@[simp] theorem State.putSlot_portP (s : State) (i : Nat) (x : Slot) : (s.putSlot i x).portP = s.portP := rfl
@[simp] theorem State.putSlot_portM (s : State) (i : Nat) (x : Slot) : (s.putSlot i x).portM = s.portM := rfl
@[simp] theorem State.putSlot_estop (s : State) (i : Nat) (x : Slot) : (s.putSlot i x).estop = s.estop := rfl
@[simp] theorem State.putSlot_inputs (s : State) (i : Nat) (x : Slot) : (s.putSlot i x).inputs = s.inputs := rfl
@[simp] theorem State.putSlot_pending (s : State) (i : Nat) (x : Slot) : (s.putSlot i x).pending = s.pending := rfl

@[simp] theorem State.eraseSlot_dispatcher (s : State) (i : Nat) : (s.eraseSlot i).dispatcher = s.dispatcher := rfl
@[simp] theorem State.eraseSlot_line (s : State) (i : Nat) : (s.eraseSlot i).line = s.line := rfl
@[simp] theorem State.eraseSlot_clock (s : State) (i : Nat) : (s.eraseSlot i).clock = s.clock := rfl
@[simp] theorem State.eraseSlot_conditions (s : State) (i : Nat) : (s.eraseSlot i).conditions = s.conditions := rfl
@[simp] theorem State.eraseSlot_options (s : State) (i : Nat) : (s.eraseSlot i).options = s.options := rfl
@[simp] theorem State.eraseSlot_engine (s : State) (i : Nat) : (s.eraseSlot i).engine = s.engine := rfl
@[simp] theorem State.eraseSlot_authority (s : State) (i : Nat) : (s.eraseSlot i).authority = s.authority := rfl
@[simp] theorem State.eraseSlot_events (s : State) (i : Nat) : (s.eraseSlot i).events = s.events := rfl
@[simp] theorem State.eraseSlot_portP (s : State) (i : Nat) : (s.eraseSlot i).portP = s.portP := rfl
@[simp] theorem State.eraseSlot_portM (s : State) (i : Nat) : (s.eraseSlot i).portM = s.portM := rfl
@[simp] theorem State.eraseSlot_estop (s : State) (i : Nat) : (s.eraseSlot i).estop = s.estop := rfl
@[simp] theorem State.eraseSlot_inputs (s : State) (i : Nat) : (s.eraseSlot i).inputs = s.inputs := rfl
@[simp] theorem State.eraseSlot_pending (s : State) (i : Nat) : (s.eraseSlot i).pending = s.pending := rfl

@[simp] theorem State.modifyWall_dispatcher (s : State) (w : Nat) (f : Wall → Wall) :
    (s.modifyWall w f).dispatcher = s.dispatcher := rfl
@[simp] theorem State.modifyWall_line (s : State) (w : Nat) (f : Wall → Wall) : (s.modifyWall w f).line = s.line := rfl
@[simp] theorem State.modifyWall_clock (s : State) (w : Nat) (f : Wall → Wall) :
    (s.modifyWall w f).clock = s.clock := rfl
@[simp] theorem State.modifyWall_conditions (s : State) (w : Nat) (f : Wall → Wall) :
    (s.modifyWall w f).conditions = s.conditions := rfl
@[simp] theorem State.modifyWall_options (s : State) (w : Nat) (f : Wall → Wall) :
    (s.modifyWall w f).options = s.options := rfl
@[simp] theorem State.modifyWall_engine (s : State) (w : Nat) (f : Wall → Wall) :
    (s.modifyWall w f).engine = s.engine := rfl
@[simp] theorem State.modifyWall_authority (s : State) (w : Nat) (f : Wall → Wall) :
    (s.modifyWall w f).authority = s.authority := rfl
@[simp] theorem State.modifyWall_events (s : State) (w : Nat) (f : Wall → Wall) :
    (s.modifyWall w f).events = s.events := rfl
@[simp] theorem State.modifyWall_portP (s : State) (w : Nat) (f : Wall → Wall) :
    (s.modifyWall w f).portP = s.portP := rfl
@[simp] theorem State.modifyWall_portM (s : State) (w : Nat) (f : Wall → Wall) :
    (s.modifyWall w f).portM = s.portM := rfl
@[simp] theorem State.modifyWall_estop (s : State) (w : Nat) (f : Wall → Wall) :
    (s.modifyWall w f).estop = s.estop := rfl
@[simp] theorem State.modifyWall_inputs (s : State) (w : Nat) (f : Wall → Wall) :
    (s.modifyWall w f).inputs = s.inputs := rfl
@[simp] theorem State.modifyWall_pending (s : State) (w : Nat) (f : Wall → Wall) :
    (s.modifyWall w f).pending = s.pending := rfl

@[simp] theorem State.gainSlot_dispatcher (s : State) (w : Nat) : (s.gainSlot w).dispatcher = s.dispatcher := rfl
@[simp] theorem State.gainSlot_line (s : State) (w : Nat) : (s.gainSlot w).line = s.line := rfl
@[simp] theorem State.gainSlot_clock (s : State) (w : Nat) : (s.gainSlot w).clock = s.clock := rfl
@[simp] theorem State.gainSlot_conditions (s : State) (w : Nat) : (s.gainSlot w).conditions = s.conditions := rfl
@[simp] theorem State.gainSlot_options (s : State) (w : Nat) : (s.gainSlot w).options = s.options := rfl
@[simp] theorem State.gainSlot_engine (s : State) (w : Nat) : (s.gainSlot w).engine = s.engine := rfl
@[simp] theorem State.gainSlot_authority (s : State) (w : Nat) : (s.gainSlot w).authority = s.authority := rfl
@[simp] theorem State.gainSlot_events (s : State) (w : Nat) : (s.gainSlot w).events = s.events := rfl
@[simp] theorem State.gainSlot_portP (s : State) (w : Nat) : (s.gainSlot w).portP = s.portP := rfl
@[simp] theorem State.gainSlot_portM (s : State) (w : Nat) : (s.gainSlot w).portM = s.portM := rfl
@[simp] theorem State.gainSlot_estop (s : State) (w : Nat) : (s.gainSlot w).estop = s.estop := rfl
@[simp] theorem State.gainSlot_inputs (s : State) (w : Nat) : (s.gainSlot w).inputs = s.inputs := rfl
@[simp] theorem State.gainSlot_pending (s : State) (w : Nat) : (s.gainSlot w).pending = s.pending := rfl

@[simp] theorem State.loseSlot_dispatcher (s : State) (w : Nat) : (s.loseSlot w).dispatcher = s.dispatcher := rfl
@[simp] theorem State.loseSlot_line (s : State) (w : Nat) : (s.loseSlot w).line = s.line := rfl
@[simp] theorem State.loseSlot_clock (s : State) (w : Nat) : (s.loseSlot w).clock = s.clock := rfl
@[simp] theorem State.loseSlot_conditions (s : State) (w : Nat) : (s.loseSlot w).conditions = s.conditions := rfl
@[simp] theorem State.loseSlot_options (s : State) (w : Nat) : (s.loseSlot w).options = s.options := rfl
@[simp] theorem State.loseSlot_engine (s : State) (w : Nat) : (s.loseSlot w).engine = s.engine := rfl
@[simp] theorem State.loseSlot_authority (s : State) (w : Nat) : (s.loseSlot w).authority = s.authority := rfl
@[simp] theorem State.loseSlot_events (s : State) (w : Nat) : (s.loseSlot w).events = s.events := rfl
@[simp] theorem State.loseSlot_portP (s : State) (w : Nat) : (s.loseSlot w).portP = s.portP := rfl
@[simp] theorem State.loseSlot_portM (s : State) (w : Nat) : (s.loseSlot w).portM = s.portM := rfl
@[simp] theorem State.loseSlot_estop (s : State) (w : Nat) : (s.loseSlot w).estop = s.estop := rfl
@[simp] theorem State.loseSlot_inputs (s : State) (w : Nat) : (s.loseSlot w).inputs = s.inputs := rfl
@[simp] theorem State.loseSlot_pending (s : State) (w : Nat) : (s.loseSlot w).pending = s.pending := rfl

@[simp] theorem State.gainLaid_dispatcher (s : State) (w : Nat) : (s.gainLaid w).dispatcher = s.dispatcher := rfl
@[simp] theorem State.gainLaid_line (s : State) (w : Nat) : (s.gainLaid w).line = s.line := rfl
@[simp] theorem State.gainLaid_clock (s : State) (w : Nat) : (s.gainLaid w).clock = s.clock := rfl
@[simp] theorem State.gainLaid_conditions (s : State) (w : Nat) : (s.gainLaid w).conditions = s.conditions := rfl
@[simp] theorem State.gainLaid_options (s : State) (w : Nat) : (s.gainLaid w).options = s.options := rfl
@[simp] theorem State.gainLaid_engine (s : State) (w : Nat) : (s.gainLaid w).engine = s.engine := rfl
@[simp] theorem State.gainLaid_authority (s : State) (w : Nat) : (s.gainLaid w).authority = s.authority := rfl
@[simp] theorem State.gainLaid_events (s : State) (w : Nat) : (s.gainLaid w).events = s.events := rfl
@[simp] theorem State.gainLaid_portP (s : State) (w : Nat) : (s.gainLaid w).portP = s.portP := rfl
@[simp] theorem State.gainLaid_portM (s : State) (w : Nat) : (s.gainLaid w).portM = s.portM := rfl
@[simp] theorem State.gainLaid_estop (s : State) (w : Nat) : (s.gainLaid w).estop = s.estop := rfl
@[simp] theorem State.gainLaid_inputs (s : State) (w : Nat) : (s.gainLaid w).inputs = s.inputs := rfl
@[simp] theorem State.gainLaid_pending (s : State) (w : Nat) : (s.gainLaid w).pending = s.pending := rfl

@[simp] theorem State.loseLaid_dispatcher (s : State) (w : Nat) : (s.loseLaid w).dispatcher = s.dispatcher := rfl
@[simp] theorem State.loseLaid_line (s : State) (w : Nat) : (s.loseLaid w).line = s.line := rfl
@[simp] theorem State.loseLaid_clock (s : State) (w : Nat) : (s.loseLaid w).clock = s.clock := rfl
@[simp] theorem State.loseLaid_conditions (s : State) (w : Nat) : (s.loseLaid w).conditions = s.conditions := rfl
@[simp] theorem State.loseLaid_options (s : State) (w : Nat) : (s.loseLaid w).options = s.options := rfl
@[simp] theorem State.loseLaid_engine (s : State) (w : Nat) : (s.loseLaid w).engine = s.engine := rfl
@[simp] theorem State.loseLaid_authority (s : State) (w : Nat) : (s.loseLaid w).authority = s.authority := rfl
@[simp] theorem State.loseLaid_events (s : State) (w : Nat) : (s.loseLaid w).events = s.events := rfl
@[simp] theorem State.loseLaid_portP (s : State) (w : Nat) : (s.loseLaid w).portP = s.portP := rfl
@[simp] theorem State.loseLaid_portM (s : State) (w : Nat) : (s.loseLaid w).portM = s.portM := rfl
@[simp] theorem State.loseLaid_estop (s : State) (w : Nat) : (s.loseLaid w).estop = s.estop := rfl
@[simp] theorem State.loseLaid_inputs (s : State) (w : Nat) : (s.loseLaid w).inputs = s.inputs := rfl
@[simp] theorem State.loseLaid_pending (s : State) (w : Nat) : (s.loseLaid w).pending = s.pending := rfl

@[simp] theorem State.clearAudited_dispatcher (s : State) (w : Nat) :
    (s.clearAudited w).dispatcher = s.dispatcher := rfl
@[simp] theorem State.clearAudited_line (s : State) (w : Nat) : (s.clearAudited w).line = s.line := rfl
@[simp] theorem State.clearAudited_clock (s : State) (w : Nat) : (s.clearAudited w).clock = s.clock := rfl
@[simp] theorem State.clearAudited_conditions (s : State) (w : Nat) :
    (s.clearAudited w).conditions = s.conditions := rfl
@[simp] theorem State.clearAudited_options (s : State) (w : Nat) : (s.clearAudited w).options = s.options := rfl
@[simp] theorem State.clearAudited_engine (s : State) (w : Nat) : (s.clearAudited w).engine = s.engine := rfl
@[simp] theorem State.clearAudited_authority (s : State) (w : Nat) : (s.clearAudited w).authority = s.authority := rfl
@[simp] theorem State.clearAudited_events (s : State) (w : Nat) : (s.clearAudited w).events = s.events := rfl
@[simp] theorem State.clearAudited_portP (s : State) (w : Nat) : (s.clearAudited w).portP = s.portP := rfl
@[simp] theorem State.clearAudited_portM (s : State) (w : Nat) : (s.clearAudited w).portM = s.portM := rfl
@[simp] theorem State.clearAudited_estop (s : State) (w : Nat) : (s.clearAudited w).estop = s.estop := rfl
@[simp] theorem State.clearAudited_inputs (s : State) (w : Nat) : (s.clearAudited w).inputs = s.inputs := rfl
@[simp] theorem State.clearAudited_pending (s : State) (w : Nat) : (s.clearAudited w).pending = s.pending := rfl

@[simp] theorem State.present_plan (s : State) (i : Nat) (st : SlotState) :
    (s.present i st).plan = s.plan := by unfold State.present; split <;> rfl
@[simp] theorem State.present_dispatcher (s : State) (i : Nat) (st : SlotState) :
    (s.present i st).dispatcher = s.dispatcher := by unfold State.present; split <;> rfl
@[simp] theorem State.present_line (s : State) (i : Nat) (st : SlotState) :
    (s.present i st).line = s.line := by unfold State.present; split <;> rfl
@[simp] theorem State.present_clock (s : State) (i : Nat) (st : SlotState) :
    (s.present i st).clock = s.clock := by unfold State.present; split <;> rfl
@[simp] theorem State.present_conditions (s : State) (i : Nat) (st : SlotState) :
    (s.present i st).conditions = s.conditions := by unfold State.present; split <;> rfl
@[simp] theorem State.present_options (s : State) (i : Nat) (st : SlotState) :
    (s.present i st).options = s.options := by unfold State.present; split <;> rfl
@[simp] theorem State.present_engine (s : State) (i : Nat) (st : SlotState) :
    (s.present i st).engine = s.engine := by unfold State.present; split <;> rfl
@[simp] theorem State.present_authority (s : State) (i : Nat) (st : SlotState) :
    (s.present i st).authority = s.authority := by unfold State.present; split <;> rfl
@[simp] theorem State.present_portP (s : State) (i : Nat) (st : SlotState) :
    (s.present i st).portP = s.portP := by unfold State.present; split <;> rfl
@[simp] theorem State.present_portM (s : State) (i : Nat) (st : SlotState) :
    (s.present i st).portM = s.portM := by unfold State.present; split <;> rfl
@[simp] theorem State.present_estop (s : State) (i : Nat) (st : SlotState) :
    (s.present i st).estop = s.estop := by unfold State.present; split <;> rfl
@[simp] theorem State.present_inputs (s : State) (i : Nat) (st : SlotState) :
    (s.present i st).inputs = s.inputs := by unfold State.present; split <;> rfl
@[simp] theorem State.present_pending (s : State) (i : Nat) (st : SlotState) :
    (s.present i st).pending = s.pending := by unfold State.present; split <;> rfl

@[simp] theorem State.enter_dispatcher (s : State) (i : Nat) (st : SlotState) (f : Slot → Slot) :
    (s.enter i st f).dispatcher = s.dispatcher := by simp [State.enter]
@[simp] theorem State.enter_line (s : State) (i : Nat) (st : SlotState) (f : Slot → Slot) :
    (s.enter i st f).line = s.line := by simp [State.enter]
@[simp] theorem State.enter_clock (s : State) (i : Nat) (st : SlotState) (f : Slot → Slot) :
    (s.enter i st f).clock = s.clock := by simp [State.enter]
@[simp] theorem State.enter_conditions (s : State) (i : Nat) (st : SlotState) (f : Slot → Slot) :
    (s.enter i st f).conditions = s.conditions := by simp [State.enter]
@[simp] theorem State.enter_options (s : State) (i : Nat) (st : SlotState) (f : Slot → Slot) :
    (s.enter i st f).options = s.options := by simp [State.enter]
@[simp] theorem State.enter_engine (s : State) (i : Nat) (st : SlotState) (f : Slot → Slot) :
    (s.enter i st f).engine = s.engine := by simp [State.enter]
@[simp] theorem State.enter_authority (s : State) (i : Nat) (st : SlotState) (f : Slot → Slot) :
    (s.enter i st f).authority = s.authority := by simp [State.enter]
@[simp] theorem State.enter_portP (s : State) (i : Nat) (st : SlotState) (f : Slot → Slot) :
    (s.enter i st f).portP = s.portP := by simp [State.enter]
@[simp] theorem State.enter_portM (s : State) (i : Nat) (st : SlotState) (f : Slot → Slot) :
    (s.enter i st f).portM = s.portM := by simp [State.enter]
@[simp] theorem State.enter_estop (s : State) (i : Nat) (st : SlotState) (f : Slot → Slot) :
    (s.enter i st f).estop = s.estop := by simp [State.enter]
@[simp] theorem State.enter_inputs (s : State) (i : Nat) (st : SlotState) (f : Slot → Slot) :
    (s.enter i st f).inputs = s.inputs := by simp [State.enter]
@[simp] theorem State.enter_pending (s : State) (i : Nat) (st : SlotState) (f : Slot → Slot) :
    (s.enter i st f).pending = s.pending := by simp [State.enter]

@[simp] theorem State.latchPlanFault_plan (s : State) : (s.latchPlanFault).plan = s.plan := rfl
@[simp] theorem State.latchPlanFault_dispatcher (s : State) : (s.latchPlanFault).dispatcher = s.dispatcher := rfl
@[simp] theorem State.latchPlanFault_line (s : State) : (s.latchPlanFault).line = s.line := rfl
@[simp] theorem State.latchPlanFault_clock (s : State) : (s.latchPlanFault).clock = s.clock := rfl
@[simp] theorem State.latchPlanFault_conditions (s : State) : (s.latchPlanFault).conditions = s.conditions := rfl
@[simp] theorem State.latchPlanFault_options (s : State) : (s.latchPlanFault).options = s.options := rfl
@[simp] theorem State.latchPlanFault_engine (s : State) : (s.latchPlanFault).engine = s.engine := rfl
@[simp] theorem State.latchPlanFault_authority (s : State) : (s.latchPlanFault).authority = s.authority := rfl
@[simp] theorem State.latchPlanFault_portP (s : State) : (s.latchPlanFault).portP = s.portP := rfl
@[simp] theorem State.latchPlanFault_portM (s : State) : (s.latchPlanFault).portM = s.portM := rfl
@[simp] theorem State.latchPlanFault_estop (s : State) : (s.latchPlanFault).estop = s.estop := rfl
@[simp] theorem State.latchPlanFault_inputs (s : State) : (s.latchPlanFault).inputs = s.inputs := rfl
@[simp] theorem State.latchPlanFault_pending (s : State) : (s.latchPlanFault).pending = s.pending := rfl

@[simp] theorem State.latchSuspect_plan (s : State) : (s.latchSuspect).plan = s.plan := rfl
@[simp] theorem State.latchSuspect_dispatcher (s : State) : (s.latchSuspect).dispatcher = s.dispatcher := rfl
@[simp] theorem State.latchSuspect_line (s : State) : (s.latchSuspect).line = s.line := rfl
@[simp] theorem State.latchSuspect_clock (s : State) : (s.latchSuspect).clock = s.clock := rfl
@[simp] theorem State.latchSuspect_conditions (s : State) : (s.latchSuspect).conditions = s.conditions := rfl
@[simp] theorem State.latchSuspect_options (s : State) : (s.latchSuspect).options = s.options := rfl
@[simp] theorem State.latchSuspect_engine (s : State) : (s.latchSuspect).engine = s.engine := rfl
@[simp] theorem State.latchSuspect_authority (s : State) : (s.latchSuspect).authority = s.authority := rfl
@[simp] theorem State.latchSuspect_portP (s : State) : (s.latchSuspect).portP = s.portP := rfl
@[simp] theorem State.latchSuspect_portM (s : State) : (s.latchSuspect).portM = s.portM := rfl
@[simp] theorem State.latchSuspect_estop (s : State) : (s.latchSuspect).estop = s.estop := rfl
@[simp] theorem State.latchSuspect_inputs (s : State) : (s.latchSuspect).inputs = s.inputs := rfl
@[simp] theorem State.latchSuspect_pending (s : State) : (s.latchSuspect).pending = s.pending := rfl

@[simp] theorem State.latchWallComplete_plan (s : State) : (s.latchWallComplete).plan = s.plan := rfl
@[simp] theorem State.latchWallComplete_dispatcher (s : State) : (s.latchWallComplete).dispatcher = s.dispatcher := rfl
@[simp] theorem State.latchWallComplete_line (s : State) : (s.latchWallComplete).line = s.line := rfl
@[simp] theorem State.latchWallComplete_clock (s : State) : (s.latchWallComplete).clock = s.clock := rfl
@[simp] theorem State.latchWallComplete_conditions (s : State) : (s.latchWallComplete).conditions = s.conditions := rfl
@[simp] theorem State.latchWallComplete_options (s : State) : (s.latchWallComplete).options = s.options := rfl
@[simp] theorem State.latchWallComplete_engine (s : State) : (s.latchWallComplete).engine = s.engine := rfl
@[simp] theorem State.latchWallComplete_authority (s : State) : (s.latchWallComplete).authority = s.authority := rfl
@[simp] theorem State.latchWallComplete_portP (s : State) : (s.latchWallComplete).portP = s.portP := rfl
@[simp] theorem State.latchWallComplete_portM (s : State) : (s.latchWallComplete).portM = s.portM := rfl
@[simp] theorem State.latchWallComplete_estop (s : State) : (s.latchWallComplete).estop = s.estop := rfl
@[simp] theorem State.latchWallComplete_inputs (s : State) : (s.latchWallComplete).inputs = s.inputs := rfl
@[simp] theorem State.latchWallComplete_pending (s : State) : (s.latchWallComplete).pending = s.pending := rfl

@[simp] theorem State.latchExpiry_plan (s : State) : (s.latchExpiry).plan = s.plan := rfl
@[simp] theorem State.latchExpiry_dispatcher (s : State) : (s.latchExpiry).dispatcher = s.dispatcher := rfl
@[simp] theorem State.latchExpiry_line (s : State) : (s.latchExpiry).line = s.line := rfl
@[simp] theorem State.latchExpiry_clock (s : State) : (s.latchExpiry).clock = s.clock := rfl
@[simp] theorem State.latchExpiry_conditions (s : State) : (s.latchExpiry).conditions = s.conditions := rfl
@[simp] theorem State.latchExpiry_options (s : State) : (s.latchExpiry).options = s.options := rfl
@[simp] theorem State.latchExpiry_engine (s : State) : (s.latchExpiry).engine = s.engine := rfl
@[simp] theorem State.latchExpiry_authority (s : State) : (s.latchExpiry).authority = s.authority := rfl
@[simp] theorem State.latchExpiry_portP (s : State) : (s.latchExpiry).portP = s.portP := rfl
@[simp] theorem State.latchExpiry_portM (s : State) : (s.latchExpiry).portM = s.portM := rfl
@[simp] theorem State.latchExpiry_estop (s : State) : (s.latchExpiry).estop = s.estop := rfl
@[simp] theorem State.latchExpiry_inputs (s : State) : (s.latchExpiry).inputs = s.inputs := rfl
@[simp] theorem State.latchExpiry_pending (s : State) : (s.latchExpiry).pending = s.pending := rfl

@[simp] theorem State.latchWeather_plan (s : State) (g st : Bool) : (s.latchWeather g st).plan = s.plan := rfl
@[simp] theorem State.latchWeather_dispatcher (s : State) (g st : Bool) :
    (s.latchWeather g st).dispatcher = s.dispatcher := rfl
@[simp] theorem State.latchWeather_line (s : State) (g st : Bool) : (s.latchWeather g st).line = s.line := rfl
@[simp] theorem State.latchWeather_clock (s : State) (g st : Bool) : (s.latchWeather g st).clock = s.clock := rfl
@[simp] theorem State.latchWeather_conditions (s : State) (g st : Bool) :
    (s.latchWeather g st).conditions = s.conditions := rfl
@[simp] theorem State.latchWeather_options (s : State) (g st : Bool) : (s.latchWeather g st).options = s.options := rfl
@[simp] theorem State.latchWeather_engine (s : State) (g st : Bool) : (s.latchWeather g st).engine = s.engine := rfl
@[simp] theorem State.latchWeather_authority (s : State) (g st : Bool) :
    (s.latchWeather g st).authority = s.authority := rfl
@[simp] theorem State.latchWeather_portP (s : State) (g st : Bool) : (s.latchWeather g st).portP = s.portP := rfl
@[simp] theorem State.latchWeather_portM (s : State) (g st : Bool) : (s.latchWeather g st).portM = s.portM := rfl
@[simp] theorem State.latchWeather_estop (s : State) (g st : Bool) : (s.latchWeather g st).estop = s.estop := rfl
@[simp] theorem State.latchWeather_inputs (s : State) (g st : Bool) : (s.latchWeather g st).inputs = s.inputs := rfl
@[simp] theorem State.latchWeather_pending (s : State) (g st : Bool) : (s.latchWeather g st).pending = s.pending := rfl

@[simp] theorem State.setConditions_plan (s : State) (c : Conditions) : (s.setConditions c).plan = s.plan := rfl
@[simp] theorem State.setConditions_dispatcher (s : State) (c : Conditions) :
    (s.setConditions c).dispatcher = s.dispatcher := rfl
@[simp] theorem State.setConditions_line (s : State) (c : Conditions) : (s.setConditions c).line = s.line := rfl
@[simp] theorem State.setConditions_clock (s : State) (c : Conditions) : (s.setConditions c).clock = s.clock := rfl
@[simp] theorem State.setConditions_options (s : State) (c : Conditions) :
    (s.setConditions c).options = s.options := rfl
@[simp] theorem State.setConditions_engine (s : State) (c : Conditions) : (s.setConditions c).engine = s.engine := rfl
@[simp] theorem State.setConditions_authority (s : State) (c : Conditions) :
    (s.setConditions c).authority = s.authority := rfl
@[simp] theorem State.setConditions_portP (s : State) (c : Conditions) : (s.setConditions c).portP = s.portP := rfl
@[simp] theorem State.setConditions_portM (s : State) (c : Conditions) : (s.setConditions c).portM = s.portM := rfl
@[simp] theorem State.setConditions_estop (s : State) (c : Conditions) : (s.setConditions c).estop = s.estop := rfl
@[simp] theorem State.setConditions_inputs (s : State) (c : Conditions) : (s.setConditions c).inputs = s.inputs := rfl
@[simp] theorem State.setConditions_pending (s : State) (c : Conditions) :
    (s.setConditions c).pending = s.pending := rfl

@[simp] theorem State.modifyCarrier_plan (s : State) (tag : Nat) (f : Carrier → Carrier) :
    (s.modifyCarrier tag f).plan = s.plan := rfl
@[simp] theorem State.modifyCarrier_dispatcher (s : State) (tag : Nat) (f : Carrier → Carrier) :
    (s.modifyCarrier tag f).dispatcher = s.dispatcher := rfl
@[simp] theorem State.modifyCarrier_clock (s : State) (tag : Nat) (f : Carrier → Carrier) :
    (s.modifyCarrier tag f).clock = s.clock := rfl
@[simp] theorem State.modifyCarrier_conditions (s : State) (tag : Nat) (f : Carrier → Carrier) :
    (s.modifyCarrier tag f).conditions = s.conditions := rfl
@[simp] theorem State.modifyCarrier_options (s : State) (tag : Nat) (f : Carrier → Carrier) :
    (s.modifyCarrier tag f).options = s.options := rfl
@[simp] theorem State.modifyCarrier_engine (s : State) (tag : Nat) (f : Carrier → Carrier) :
    (s.modifyCarrier tag f).engine = s.engine := rfl
@[simp] theorem State.modifyCarrier_authority (s : State) (tag : Nat) (f : Carrier → Carrier) :
    (s.modifyCarrier tag f).authority = s.authority := rfl
@[simp] theorem State.modifyCarrier_events (s : State) (tag : Nat) (f : Carrier → Carrier) :
    (s.modifyCarrier tag f).events = s.events := rfl
@[simp] theorem State.modifyCarrier_portP (s : State) (tag : Nat) (f : Carrier → Carrier) :
    (s.modifyCarrier tag f).portP = s.portP := rfl
@[simp] theorem State.modifyCarrier_portM (s : State) (tag : Nat) (f : Carrier → Carrier) :
    (s.modifyCarrier tag f).portM = s.portM := rfl
@[simp] theorem State.modifyCarrier_estop (s : State) (tag : Nat) (f : Carrier → Carrier) :
    (s.modifyCarrier tag f).estop = s.estop := rfl
@[simp] theorem State.modifyCarrier_inputs (s : State) (tag : Nat) (f : Carrier → Carrier) :
    (s.modifyCarrier tag f).inputs = s.inputs := rfl
@[simp] theorem State.modifyCarrier_pending (s : State) (tag : Nat) (f : Carrier → Carrier) :
    (s.modifyCarrier tag f).pending = s.pending := rfl

@[simp] theorem State.removeCarrier_plan (s : State) (tag : Nat) : (s.removeCarrier tag).plan = s.plan := rfl
@[simp] theorem State.removeCarrier_dispatcher (s : State) (tag : Nat) :
    (s.removeCarrier tag).dispatcher = s.dispatcher := rfl
@[simp] theorem State.removeCarrier_clock (s : State) (tag : Nat) : (s.removeCarrier tag).clock = s.clock := rfl
@[simp] theorem State.removeCarrier_conditions (s : State) (tag : Nat) :
    (s.removeCarrier tag).conditions = s.conditions := rfl
@[simp] theorem State.removeCarrier_options (s : State) (tag : Nat) : (s.removeCarrier tag).options = s.options := rfl
@[simp] theorem State.removeCarrier_engine (s : State) (tag : Nat) : (s.removeCarrier tag).engine = s.engine := rfl
@[simp] theorem State.removeCarrier_authority (s : State) (tag : Nat) :
    (s.removeCarrier tag).authority = s.authority := rfl
@[simp] theorem State.removeCarrier_events (s : State) (tag : Nat) : (s.removeCarrier tag).events = s.events := rfl
@[simp] theorem State.removeCarrier_portP (s : State) (tag : Nat) : (s.removeCarrier tag).portP = s.portP := rfl
@[simp] theorem State.removeCarrier_portM (s : State) (tag : Nat) : (s.removeCarrier tag).portM = s.portM := rfl
@[simp] theorem State.removeCarrier_estop (s : State) (tag : Nat) : (s.removeCarrier tag).estop = s.estop := rfl
@[simp] theorem State.removeCarrier_inputs (s : State) (tag : Nat) : (s.removeCarrier tag).inputs = s.inputs := rfl
@[simp] theorem State.removeCarrier_pending (s : State) (tag : Nat) : (s.removeCarrier tag).pending = s.pending := rfl

@[simp] theorem State.reselect_plan (s : State) : (s.reselect).plan = s.plan := rfl
@[simp] theorem State.reselect_line (s : State) : (s.reselect).line = s.line := rfl
@[simp] theorem State.reselect_clock (s : State) : (s.reselect).clock = s.clock := rfl
@[simp] theorem State.reselect_conditions (s : State) : (s.reselect).conditions = s.conditions := rfl
@[simp] theorem State.reselect_options (s : State) : (s.reselect).options = s.options := rfl
@[simp] theorem State.reselect_engine (s : State) : (s.reselect).engine = s.engine := rfl
@[simp] theorem State.reselect_authority (s : State) : (s.reselect).authority = s.authority := rfl
@[simp] theorem State.reselect_events (s : State) : (s.reselect).events = s.events := rfl
@[simp] theorem State.reselect_portP (s : State) : (s.reselect).portP = s.portP := rfl
@[simp] theorem State.reselect_portM (s : State) : (s.reselect).portM = s.portM := rfl
@[simp] theorem State.reselect_estop (s : State) : (s.reselect).estop = s.estop := rfl
@[simp] theorem State.reselect_inputs (s : State) : (s.reselect).inputs = s.inputs := rfl
@[simp] theorem State.reselect_pending (s : State) : (s.reselect).pending = s.pending := rfl

/-! ### What each update writes -/

@[simp] theorem State.port_P (s : State) : s.port .P = s.portP := rfl
@[simp] theorem State.port_M (s : State) : s.port .M = s.portM := rfl
@[simp] theorem State.setPort_portP (s : State) (x : PortState) : (s.setPort .P x).portP = x := rfl
@[simp] theorem State.setPort_portM (s : State) (x : PortState) : (s.setPort .M x).portM = x := rfl
@[simp] theorem State.setPort_P_portM (s : State) (x : PortState) : (s.setPort .P x).portM = s.portM := rfl
@[simp] theorem State.setPort_M_portP (s : State) (x : PortState) : (s.setPort .M x).portP = s.portP := rfl
@[simp] theorem State.reply_port (s : State) (p : Port) (c : Byte) (st : Status) (b : Body) :
    (s.reply p c st b).port p = (s.port p).send ⟨c, st, b⟩ := by cases p <;> rfl
@[simp] theorem State.reply_P_portP (s : State) (c : Byte) (st : Status) (b : Body) :
    (s.reply .P c st b).portP = s.portP.send ⟨c, st, b⟩ := rfl
@[simp] theorem State.reply_P_portM (s : State) (c : Byte) (st : Status) (b : Body) :
    (s.reply .P c st b).portM = s.portM := rfl
@[simp] theorem State.reply_M_portM (s : State) (c : Byte) (st : Status) (b : Body) :
    (s.reply .M c st b).portM = s.portM.send ⟨c, st, b⟩ := rfl
@[simp] theorem State.reply_M_portP (s : State) (c : Byte) (st : Status) (b : Body) :
    (s.reply .M c st b).portP = s.portP := rfl
@[simp] theorem State.refuse_P_portP (s : State) (c : Byte) (st : Status) :
    (s.refuse .P c st).portP = s.portP.send ⟨c, st, .empty⟩ := rfl
@[simp] theorem State.refuse_P_portM (s : State) (c : Byte) (st : Status) :
    (s.refuse .P c st).portM = s.portM := rfl
@[simp] theorem State.refuse_M_portM (s : State) (c : Byte) (st : Status) :
    (s.refuse .M c st).portM = s.portM.send ⟨c, st, .empty⟩ := rfl
@[simp] theorem State.refuse_M_portP (s : State) (c : Byte) (st : Status) :
    (s.refuse .M c st).portP = s.portP := rfl
@[simp] theorem State.setCursor_P_portP (s : State) (i : Nat) :
    (s.setCursor .P i).portP = { s.portP with cursor := i } := rfl
@[simp] theorem State.setCursor_P_portM (s : State) (i : Nat) : (s.setCursor .P i).portM = s.portM := rfl
@[simp] theorem State.setCursor_M_portM (s : State) (i : Nat) :
    (s.setCursor .M i).portM = { s.portM with cursor := i } := rfl
@[simp] theorem State.setCursor_M_portP (s : State) (i : Nat) : (s.setCursor .M i).portP = s.portP := rfl
@[simp] theorem State.setReceiver_P_portP (s : State) (r : Receiver) :
    (s.setReceiver .P r).portP = { s.portP with receiver := r } := rfl
@[simp] theorem State.setReceiver_P_portM (s : State) (r : Receiver) : (s.setReceiver .P r).portM = s.portM := rfl
@[simp] theorem State.setReceiver_M_portM (s : State) (r : Receiver) :
    (s.setReceiver .M r).portM = { s.portM with receiver := r } := rfl
@[simp] theorem State.setReceiver_M_portP (s : State) (r : Receiver) : (s.setReceiver .M r).portP = s.portP := rfl
@[simp] theorem State.release_port (s : State) (p : Port) : (s.release p).port p = (s.port p).release := by
  cases p <;> rfl
@[simp] theorem State.release_P_portM (s : State) : (s.release .P).portM = s.portM := rfl
@[simp] theorem State.release_M_portP (s : State) : (s.release .M).portP = s.portP := rfl
@[simp] theorem State.discardFrame_port (s : State) (p : Port) :
    (s.discardFrame p).port p = PortState.release { s.port p with receiver := .hunting } := by cases p <;> rfl
@[simp] theorem State.discardFrame_P_portM (s : State) : (s.discardFrame .P).portM = s.portM := rfl
@[simp] theorem State.discardFrame_M_portP (s : State) : (s.discardFrame .M).portP = s.portP := rfl
@[simp] theorem PortState.send_cursor (x : PortState) (r : Response) : (x.send r).cursor = x.cursor := rfl
@[simp] theorem PortState.send_receiver (x : PortState) (r : Response) : (x.send r).receiver = x.receiver := rfl
@[simp] theorem PortState.send_sent (x : PortState) (r : Response) :
    (x.send r).sent = x.sent ++ x.waiting.toList ++ [r] := rfl
@[simp] theorem PortState.send_waiting (x : PortState) (r : Response) : (x.send r).waiting = x.behind := rfl
@[simp] theorem PortState.send_behind (x : PortState) (r : Response) : (x.send r).behind = none := rfl
@[simp] theorem PortState.send_answer (x : PortState) (r : Response) : (x.send r).answer = some r := by
  simp [PortState.answer]
@[simp] theorem PortState.release_cursor (x : PortState) : x.release.cursor = x.cursor := by
  unfold PortState.release; split <;> rfl
@[simp] theorem PortState.release_receiver (x : PortState) : x.release.receiver = x.receiver := by
  unfold PortState.release; split <;> rfl
@[simp] theorem PortState.release_behind (x : PortState) : x.release.behind = none := by
  unfold PortState.release; split
  · assumption
  · rfl
@[simp] theorem PortState.ending_cursor (x : PortState) (r : Response) : (x.ending r).cursor = x.cursor := by
  unfold PortState.ending; split <;> simp
@[simp] theorem PortState.ending_receiver (x : PortState) (r : Response) : (x.ending r).receiver = x.receiver := by
  unfold PortState.ending; split <;> simp
@[simp] theorem State.dueOnPlanPort_portP (s : State) (r : Response) :
    (s.dueOnPlanPort r).portP = s.portP.ending r := rfl
@[simp] theorem State.modifySlot_plan (s : State) (i : Nat) (f : Slot → Slot) :
    (s.modifySlot i f).plan = s.plan.modifySlot i f := rfl
@[simp] theorem State.putSlot_plan (s : State) (i : Nat) (x : Slot) :
    (s.putSlot i x).plan = s.plan.putSlot i x := rfl
@[simp] theorem State.eraseSlot_plan (s : State) (i : Nat) : (s.eraseSlot i).plan = s.plan.eraseSlot i := rfl
@[simp] theorem State.modifyWall_plan (s : State) (w : Nat) (f : Wall → Wall) :
    (s.modifyWall w f).plan = s.plan.modifyWall w f := rfl
@[simp] theorem State.gainSlot_plan (s : State) (w : Nat) :
    (s.gainSlot w).plan = s.plan.modifyWall w fun x => { x with slotCount := x.slotCount + 1 } := rfl
@[simp] theorem State.loseSlot_plan (s : State) (w : Nat) :
    (s.loseSlot w).plan = s.plan.modifyWall w fun x => { x with slotCount := x.slotCount - 1 } := rfl
@[simp] theorem State.gainLaid_plan (s : State) (w : Nat) :
    (s.gainLaid w).plan = s.plan.modifyWall w fun x => { x with laidCount := x.laidCount + 1 } := rfl
@[simp] theorem State.loseLaid_plan (s : State) (w : Nat) :
    (s.loseLaid w).plan = s.plan.modifyWall w fun x => { x with laidCount := x.laidCount - 1 } := rfl
@[simp] theorem State.clearAudited_plan (s : State) (w : Nat) :
    (s.clearAudited w).plan = s.plan.modifyWall w fun x => { x with audited := false } := rfl
@[simp] theorem State.enter_plan (s : State) (i : Nat) (st : SlotState) (f : Slot → Slot) :
    (s.enter i st f).plan = s.plan.modifySlot i fun x => { f x with state := st } := by simp [State.enter]
@[simp] theorem State.reselect_queue (s : State) : s.reselect.dispatcher.queue = s.plan.queueByLaw := rfl
@[simp] theorem State.reselect_station (s : State) : s.reselect.dispatcher.station = s.dispatcher.station := rfl
@[simp] theorem State.reselect_hold (s : State) : s.reselect.dispatcher.hold = s.dispatcher.hold := rfl
@[simp] theorem State.reselect_binEmpty (s : State) : s.reselect.dispatcher.binEmpty = s.dispatcher.binEmpty := rfl
@[simp] theorem State.removeCarrier_line (s : State) (tag : Nat) :
    (s.removeCarrier tag).line = s.line.filter fun c => c.tag != tag := rfl
@[simp] theorem State.modifyCarrier_line (s : State) (tag : Nat) (f : Carrier → Carrier) :
    (s.modifyCarrier tag f).line = s.line.map fun c => if c.tag == tag then f c else c := rfl
@[simp] theorem State.setConditions_conditions (s : State) (c : Conditions) :
    (s.setConditions c).conditions = c := rfl
@[simp] theorem State.latchPlanFault_events (s : State) :
    s.latchPlanFault.events = { s.events with planFault := true } := rfl
@[simp] theorem State.latchSuspect_events (s : State) :
    s.latchSuspect.events = { s.events with suspect := true } := rfl
@[simp] theorem State.latchWallComplete_events (s : State) :
    s.latchWallComplete.events = { s.events with wallComplete := true } := rfl
@[simp] theorem State.latchExpiry_events (s : State) :
    s.latchExpiry.events = { s.events with expiry := true } := rfl
@[simp] theorem State.setConditions_events (s : State) (c : Conditions) :
    (s.setConditions c).events = { s.events with
      gateChange := s.events.gateChange || s.conditions.gatesDiffer c
      stale := s.events.stale || (!s.conditions.stale && c.stale) } := rfl
@[simp] theorem State.goStale_plan (s : State) : s.goStale.plan = s.plan := by unfold State.goStale; split <;> rfl
@[simp] theorem State.goStale_dispatcher (s : State) : s.goStale.dispatcher = s.dispatcher := by unfold State.goStale; split <;> rfl
@[simp] theorem State.goStale_line (s : State) : s.goStale.line = s.line := by unfold State.goStale; split <;> rfl
@[simp] theorem State.goStale_clock (s : State) : s.goStale.clock = s.clock := by unfold State.goStale; split <;> rfl
@[simp] theorem State.goStale_options (s : State) : s.goStale.options = s.options := by unfold State.goStale; split <;> rfl
@[simp] theorem State.goStale_engine (s : State) : s.goStale.engine = s.engine := by unfold State.goStale; split <;> rfl
@[simp] theorem State.goStale_authority (s : State) : s.goStale.authority = s.authority := by unfold State.goStale; split <;> rfl
@[simp] theorem State.goStale_portP (s : State) : s.goStale.portP = s.portP := by unfold State.goStale; split <;> rfl
@[simp] theorem State.goStale_portM (s : State) : s.goStale.portM = s.portM := by unfold State.goStale; split <;> rfl
@[simp] theorem State.goStale_estop (s : State) : s.goStale.estop = s.estop := by unfold State.goStale; split <;> rfl
@[simp] theorem State.goStale_inputs (s : State) : s.goStale.inputs = s.inputs := by unfold State.goStale; split <;> rfl
@[simp] theorem State.goStale_pending (s : State) : s.goStale.pending = s.pending := by unfold State.goStale; split <;> rfl
/-- Turning stale, whole (R114). -/
@[simp] theorem State.goStale_conditions (s : State) :
    s.goStale.conditions = if s.conditions.stale then s.conditions else s.conditions.turnStale := by
  unfold State.goStale; split <;> rfl
@[simp] theorem State.goStale_events (s : State) : s.goStale.events = if s.conditions.stale then s.events else
    { s.events with
      gateChange := s.events.gateChange || s.conditions.gatesDiffer s.conditions.turnStale
      stale := true } := by
  unfold State.goStale
  split
  · rfl
  · rename_i h
    simp only [Bool.not_eq_true] at h
    simp [h, Conditions.turnStale]
@[simp] theorem State.busy_eq_false (s : State) : s.busy = false ↔ s.engine = .idle := by simp [State.busy]

end Sys2Proof.Machine
end

