-- ==== Sys2Proof/Laws/Admission.lean ====
section
/-! SUPPORT. The ways a command is taken or turned away before its own tests: one lemma for each outcome of the shared
operand forms of Machine/Operands.lean and of `withCarrier`, so that no later proof unfolds them. -/

namespace Sys2Proof.Machine

open Sys2Proof

variable {s : State} {p : Port} {c : CommandClass} {code : Byte}

/-! ### Busy and class -/

theorem State.busy_of_idle (h : s.engine = .idle) : s.busy = false := by simp [State.busy, h]

theorem State.busy_of_running (h : s.engine ≠ .idle) : s.busy = true := by simp [State.busy, h]

theorem State.idle_of_takes (h : s.takes .P c) : s.engine = .idle := by
  cases c <;> first | exact h | exact h.1

theorem State.admits_of_takes (h : s.takes .P c) : s.authority.admits c = true := by
  cases c
  · rfl
  · simp only [Authority.admits, Bool.or_eq_true, beq_iff_eq]; exact h.2
  · simp only [Authority.admits, beq_iff_eq]; exact h.2
  · rfl

theorem State.takes_iff : s.takes .P c ↔ s.engine = .idle ∧ s.authority.admits c = true := by
  refine ⟨fun h => ⟨State.idle_of_takes h, State.admits_of_takes h⟩, fun h => ?_⟩
  cases c
  · exact h.1
  · exact ⟨h.1, by simpa [Authority.admits] using h.2⟩
  · exact ⟨h.1, by simpa [Authority.admits] using h.2⟩
  · exact h.1

theorem State.onPlanPort_of_takes (h : s.takes .P c) (take : State → State) : s.onPlanPort code c take = take s := by
  simp [State.onPlanPort, State.busy_of_idle (State.idle_of_takes h), State.admits_of_takes h]

theorem State.onPlanPort_of_running (h : s.engine ≠ .idle) (take : State → State) :
    s.onPlanPort code c take = s.refuse .P code .busy := by
  simp [State.onPlanPort, State.busy_of_running h]

theorem State.onPlanPort_of_not_takes (hi : s.engine = .idle) (h : ¬ s.takes .P c) (take : State → State) :
    s.onPlanPort code c take = s.refuse .P code .authority := by
  rw [State.takes_iff] at h
  simp only [hi, true_and] at h
  simp [State.onPlanPort, State.busy_of_idle hi, h]

theorem State.onPort_of_takes (h : s.takes p c) (take : State → State) : s.onPort p code c take = take s := by
  cases p
  · exact State.onPlanPort_of_takes h take
  · rfl

/-- What `onPlanPort` can come to. -/
theorem State.onPlanPort_cases (s : State) (code : Byte) (c : CommandClass) (take : State → State) :
    (s.takes .P c ∧ s.onPlanPort code c take = take s)
      ∨ ∃ st, s.onPlanPort code c take = s.refuse .P code st := by
  by_cases hi : s.engine = .idle
  · by_cases h : s.takes .P c
    · exact .inl ⟨h, State.onPlanPort_of_takes h take⟩
    · exact .inr ⟨_, State.onPlanPort_of_not_takes hi h take⟩
  · exact .inr ⟨_, State.onPlanPort_of_running hi take⟩

/-- What `onPort` can come to. -/
theorem State.onPort_cases (s : State) (p : Port) (code : Byte) (c : CommandClass) (take : State → State) :
    (s.takes p c ∧ s.onPort p code c take = take s) ∨ ∃ st, s.onPort p code c take = s.refuse p code st := by
  cases p
  · exact State.onPlanPort_cases s code c take
  · exact .inl ⟨trivial, rfl⟩

/-! ### Addresses, slots, walls, carriers -/

theorem State.withAddress_none {a : SlotAddress} (h : s.resolve p a = none) (take : Nat → State → State) :
    s.withAddress p code a take = s.refuse p code .badAddress := by simp [State.withAddress, h]

theorem State.withAddress_some {a : SlotAddress} {i : Nat} (h : s.resolve p a = some i) (take : Nat → State → State) :
    s.withAddress p code a take = take i (s.setCursor p i) := by simp [State.withAddress, h]

theorem State.withSlot_unresolved {a : SlotAddress} (h : s.resolve .P a = none)
    (take : Nat → Slot → State → State) : s.withSlot code a take = s.refuse .P code .badAddress :=
  State.withAddress_none h _

theorem State.withSlot_empty {a : SlotAddress} {i : Nat} (h : s.resolve .P a = some i) (hx : s.plan.slot? i = none)
    (take : Nat → Slot → State → State) :
    s.withSlot code a take = (s.setCursor .P i).refuse .P code .badState := by
  simp [State.withSlot, State.withAddress_some h, hx]

theorem State.withSlot_some {a : SlotAddress} {i : Nat} {x : Slot} (h : s.resolve .P a = some i)
    (hx : s.plan.slot? i = some x) (take : Nat → Slot → State → State) :
    s.withSlot code a take = take i x (s.setCursor .P i) := by
  simp [State.withSlot, State.withAddress_some h, hx]

theorem State.withWall_below {w : Byte} (h : w.toNat < Config.wallCount) (take : Nat → Wall → State → State) :
    s.withWall code w take = take w.toNat (s.plan.wall w.toNat) s := by simp [State.withWall, h]

theorem State.withWall_above {w : Byte} (h : ¬ w.toNat < Config.wallCount) (take : Nat → Wall → State → State) :
    s.withWall code w take = s.refuse .P code .badAddress := by simp [State.withWall, h]

theorem State.withCarrier_none {tag : Byte} (h : s.carrier? tag.toNat = none) (take : Carrier → State → Result) :
    s.withCarrier code tag take = .next (s.refuse .M code .badAddress) := by simp [State.withCarrier, h]

theorem State.withCarrier_some {tag : Byte} {d : Carrier} (h : s.carrier? tag.toNat = some d)
    (take : Carrier → State → Result) : s.withCarrier code tag take = take d s := by simp [State.withCarrier, h]

/-- The carrier a tag names is on the line and holds the tag. -/
theorem State.carrier?_some {tag : Nat} {d : Carrier} (h : s.carrier? tag = some d) : d ∈ s.line ∧ d.tag = tag :=
  ⟨List.mem_of_find?_eq_some h, by simpa using List.find?_some h⟩

theorem State.isFront_iff {tag : Nat} : s.isFront tag = true ↔ ∃ d, s.line.head? = some d ∧ d.tag = tag := by
  unfold State.isFront
  cases s.line.head? <;> simp

end Sys2Proof.Machine
end

