-- ==== Sys2Proof/Laws/Table.lean ====
section
/-! SUPPORT. The slot table: what a read finds after each update, and that every update keeps the canonical form
`tableWf`. -/

namespace Sys2Proof.Machine

open Sys2Proof

/-! ### Indices -/

/-- The indices rise strictly. -/
def tableSorted (t : SlotTable) : Prop := (t.map Prod.fst).Pairwise (· < ·)

theorem tableSorted_nil : tableSorted [] := List.Pairwise.nil

theorem tableSorted_cons {e : Nat × Slot} {t : SlotTable} :
    tableSorted (e :: t) ↔ (∀ x ∈ t, e.1 < x.1) ∧ tableSorted t := by
  simp [tableSorted, List.pairwise_cons]

theorem tableSorted_of_wf {t : SlotTable} (h : tableWf t) : tableSorted t := h.1

theorem tableSorted.sublist {t u : SlotTable} (h : tableSorted t) (hs : u.Sublist t) : tableSorted u :=
  List.Pairwise.sublist (hs.map _) h

theorem tableSorted.nodup {t : SlotTable} (h : tableSorted t) : (t.map Prod.fst).Nodup :=
  List.Pairwise.imp (fun h => Nat.ne_of_lt h) h

/-! ### Reading -/

@[simp] theorem tableGet_nil (i : Nat) : tableGet [] i = none := rfl

theorem tableGet_cons (e : Nat × Slot) (t : SlotTable) (i : Nat) :
    tableGet (e :: t) i = if e.1 = i then some e.2 else tableGet t i := rfl

/-- What is read at an index is listed there. -/
theorem mem_of_tableGet {t : SlotTable} {i : Nat} {x : Slot} (h : tableGet t i = some x) : (i, x) ∈ t := by
  induction t with
  | nil => simp at h
  | cons e t ih =>
    rw [tableGet_cons] at h
    split at h
    · rename_i he; cases h; subst he; exact List.mem_cons_self
    · exact List.mem_cons_of_mem _ (ih h)

/-- What is listed at an index is read there, the indices rising strictly. -/
theorem tableGet_of_mem {t : SlotTable} (hs : tableSorted t) {i : Nat} {x : Slot} (h : (i, x) ∈ t) :
    tableGet t i = some x := by
  induction t with
  | nil => simp at h
  | cons e t ih =>
    rw [tableSorted_cons] at hs
    rw [tableGet_cons]
    rcases List.mem_cons.1 h with rfl | h
    · simp
    · rw [if_neg (Nat.ne_of_lt (hs.1 _ h)), ih hs.2 h]

theorem tableGet_eq_some {t : SlotTable} (hs : tableSorted t) {i : Nat} {x : Slot} :
    tableGet t i = some x ↔ (i, x) ∈ t := ⟨mem_of_tableGet, tableGet_of_mem hs⟩

/-- An index is listed exactly when something is read there. -/
theorem mem_keys_iff {t : SlotTable} {i : Nat} : i ∈ t.map Prod.fst ↔ (tableGet t i).isSome := by
  induction t with
  | nil => simp
  | cons e t ih =>
    rw [tableGet_cons]
    by_cases h : e.1 = i
    · simp [h]
    · simp only [List.map_cons, List.mem_cons, ih, if_neg h]
      constructor
      · rintro (h' | h')
        · exact absurd h'.symm h
        · exact h'
      · exact Or.inr

/-- Two tables in rising order that read the same everywhere are equal. -/
theorem table_ext {t u : SlotTable} (ht : tableSorted t) (hu : tableSorted u)
    (h : ∀ i, tableGet t i = tableGet u i) : t = u := by
  induction t generalizing u with
  | nil =>
    cases u with
    | nil => rfl
    | cons e u => have := h e.1; simp [tableGet_cons] at this
  | cons e t ih =>
    cases u with
    | nil => have := h e.1; simp [tableGet_cons] at this
    | cons d u =>
      rw [tableSorted_cons] at ht hu
      have key : e.1 = d.1 := by
        rcases Nat.lt_trichotomy e.1 d.1 with hl | he | hl
        · have h1 := h e.1
          rw [tableGet_cons, tableGet_cons, if_pos rfl, if_neg (by omega)] at h1
          have := hu.1 _ (mem_of_tableGet h1.symm); simp at this; omega
        · exact he
        · have h1 := h d.1
          rw [tableGet_cons, tableGet_cons, if_neg (by omega), if_pos rfl] at h1
          have := ht.1 _ (mem_of_tableGet h1); simp at this; omega
      have h1 := h e.1
      rw [tableGet_cons, tableGet_cons, if_pos rfl, if_pos key.symm] at h1
      have hed : e = d := Prod.ext key (Option.some.inj h1)
      subst hed
      congr 1
      apply ih ht.2 hu.2
      intro i
      have := h i
      rw [tableGet_cons, tableGet_cons] at this
      by_cases hi : e.1 = i
      · subst hi
        have g (v : SlotTable) (hv : ∀ x ∈ v, e.1 < x.1) : tableGet v e.1 = none := by
          cases hg : tableGet v e.1 with
          | none => rfl
          | some y => have := hv _ (mem_of_tableGet hg); simp at this
        rw [g t ht.1, g u hu.1]
      · simpa [hi] using this

/-! ### Writing -/

theorem tableGet_put (t : SlotTable) (i j : Nat) (x : Slot) :
    tableGet (tablePut t i x) j = if i = j then some x else tableGet t j := by
  induction t with
  | nil => simp [tablePut, tableGet_cons]
  | cons e t ih =>
    obtain ⟨k, y⟩ := e
    simp only [tablePut]
    split
    · simp [tableGet_cons]
    · split
      · rename_i h; subst h; simp only [tableGet_cons]; split <;> rfl
      · simp only [tableGet_cons, ih]
        by_cases hk : k = j
        · subst hk; simp [*]
        · simp [hk]

@[simp] theorem tableGet_put_self (t : SlotTable) (i : Nat) (x : Slot) : tableGet (tablePut t i x) i = some x := by
  simp [tableGet_put]

theorem tableGet_put_ne (t : SlotTable) {i j : Nat} (h : i ≠ j) (x : Slot) :
    tableGet (tablePut t i x) j = tableGet t j := by
  simp [tableGet_put, h]

theorem mem_put {t : SlotTable} {i : Nat} {x : Slot} {e : Nat × Slot} (h : e ∈ tablePut t i x) :
    e = (i, x) ∨ e ∈ t := by
  induction t with
  | nil => simpa [tablePut] using h
  | cons d t ih =>
    obtain ⟨k, y⟩ := d
    simp only [tablePut] at h
    split at h
    · simpa using h
    · split at h
      · rcases List.mem_cons.1 h with h | h
        · exact .inl h
        · exact .inr (List.mem_cons_of_mem _ h)
      · rcases List.mem_cons.1 h with h | h
        · exact .inr (h ▸ List.mem_cons_self)
        · rcases ih h with h | h
          · exact .inl h
          · exact .inr (List.mem_cons_of_mem _ h)

theorem tableSorted_put {t : SlotTable} (h : tableSorted t) (i : Nat) (x : Slot) : tableSorted (tablePut t i x) := by
  induction t with
  | nil => simp [tablePut, tableSorted]
  | cons d t ih =>
    obtain ⟨k, y⟩ := d
    have h' := h
    rw [tableSorted_cons] at h
    simp only [tablePut]
    split
    · rename_i hl
      rw [tableSorted_cons]
      refine ⟨?_, h'⟩
      intro e he
      rcases List.mem_cons.1 he with rfl | he
      · exact hl
      · exact Nat.lt_trans hl (h.1 e he)
    · split
      · rename_i he; subst he; rw [tableSorted_cons]; exact h
      · rw [tableSorted_cons]
        refine ⟨?_, ih h.2⟩
        intro e he
        rcases mem_put he with rfl | he
        · simp; omega
        · exact h.1 e he

theorem tableWf_put {t : SlotTable} (h : tableWf t) {i : Nat} {x : Slot} (hi : i < Config.slotCount)
    (hx : x.state ≠ .empty) : tableWf (tablePut t i x) := by
  refine ⟨tableSorted_put h.1 i x, ?_⟩
  intro e he
  rcases mem_put he with rfl | he
  · exact ⟨hi, hx⟩
  · exact h.2 e he

theorem tableGet_modify (t : SlotTable) (i j : Nat) (f : Slot → Slot) :
    tableGet (tableModify t i f) j = if i = j then (tableGet t j).map f else tableGet t j := by
  induction t with
  | nil => simp [tableModify]
  | cons e t ih =>
    have : tableModify (e :: t) i f = (if e.1 = i then (e.1, f e.2) else e) :: tableModify t i f := rfl
    rw [this, tableGet_cons, tableGet_cons, ih]
    by_cases h1 : e.1 = i
    · subst h1
      by_cases h2 : e.1 = j
      · simp [h2]
      · simp [h2]
    · by_cases h2 : e.1 = j
      · subst h2; simp [h1, Ne.symm h1]
      · simp [h1, h2]

@[simp] theorem tableModify_keys (t : SlotTable) (i : Nat) (f : Slot → Slot) :
    (tableModify t i f).map Prod.fst = t.map Prod.fst := by
  induction t with
  | nil => rfl
  | cons e t ih =>
    simp only [tableModify, List.map_cons, List.map_map] at *
    rw [ih]; congr 1; split <;> rfl

theorem tableSorted_modify {t : SlotTable} (h : tableSorted t) (i : Nat) (f : Slot → Slot) :
    tableSorted (tableModify t i f) := by
  unfold tableSorted; rw [tableModify_keys]; exact h

theorem mem_modify {t : SlotTable} {i : Nat} {f : Slot → Slot} {e : Nat × Slot} (h : e ∈ tableModify t i f) :
    (∃ x, (i, x) ∈ t ∧ e = (i, f x)) ∨ (e.1 ≠ i ∧ e ∈ t) := by
  obtain ⟨d, hd, rfl⟩ := List.mem_map.1 h
  by_cases hi : d.1 = i
  · left; refine ⟨d.2, ?_, ?_⟩
    · rw [← hi]; exact hd
    · simp [hi]
  · right; simp only [if_neg hi]; exact ⟨hi, hd⟩

theorem tableWf_modify {t : SlotTable} (h : tableWf t) {i : Nat} {f : Slot → Slot}
    (hf : ∀ x, tableGet t i = some x → (f x).state ≠ .empty) : tableWf (tableModify t i f) := by
  refine ⟨tableSorted_modify h.1 i f, ?_⟩
  intro e he
  rcases mem_modify he with ⟨x, hx, rfl⟩ | ⟨_, he⟩
  · exact ⟨(h.2 _ hx).1, hf x (tableGet_of_mem h.1 hx)⟩
  · exact h.2 e he

theorem tableGet_filter {t : SlotTable} (hs : tableSorted t) (q : Nat × Slot → Bool) (j : Nat) :
    tableGet (t.filter q) j = (tableGet t j).filter fun x => q (j, x) := by
  induction t with
  | nil => simp
  | cons e t ih =>
    rw [tableSorted_cons] at hs
    have gn (h : e.1 = j) : tableGet t j = none := by
      cases hg : tableGet t j with
      | none => rfl
      | some y => have := hs.1 _ (mem_of_tableGet hg); simp at this; omega
    rw [List.filter_cons, tableGet_cons]
    by_cases h : e.1 = j
    · have he : (j, e.2) = e := by rw [← h]
      by_cases hq : q e
      · simp [h, hq, tableGet_cons, Option.filter, he]
      · simp [h, hq, ih hs.2, gn h, Option.filter, he]
    · by_cases hq : q e
      · simp [h, hq, tableGet_cons, ih hs.2]
      · simp [h, hq, ih hs.2]

theorem tableWf_filter {t : SlotTable} (h : tableWf t) (q : Nat × Slot → Bool) : tableWf (t.filter q) :=
  ⟨tableSorted.sublist h.1 List.filter_sublist, fun e he => h.2 e (List.mem_filter.1 he).1⟩

theorem tableGet_erase {t : SlotTable} (hs : tableSorted t) (i j : Nat) :
    tableGet (tableErase t i) j = if i = j then none else tableGet t j := by
  unfold tableErase
  rw [tableGet_filter hs]
  by_cases h : i = j
  · subst h; cases tableGet t i <;> simp [Option.filter]
  · cases tableGet t j <;> simp [Option.filter, h, Ne.symm h]

theorem tableWf_erase {t : SlotTable} (h : tableWf t) (i : Nat) : tableWf (tableErase t i) := tableWf_filter h _

/-- No Empty slot is read from a table in its canonical form. -/
theorem state_ne_empty_of_get {t : SlotTable} (h : tableWf t) {i : Nat} {x : Slot} (hx : tableGet t i = some x) :
    x.state ≠ .empty := (h.2 _ (mem_of_tableGet hx)).2

theorem index_lt_of_get {t : SlotTable} (h : tableWf t) {i : Nat} {x : Slot} (hx : tableGet t i = some x) :
    i < Config.slotCount := (h.2 _ (mem_of_tableGet hx)).1

end Sys2Proof.Machine
end

