-- ==== Sys2Proof/Laws/Plan.lean ====
section
/-! SUPPORT. The Plan Store: what a slot, a wall and a catalogue entry read as after each update. -/

namespace Sys2Proof.Machine

open Sys2Proof

/-! ### Slots -/

theorem Plan.slot?_modifySlot (p : Plan) (i j : Nat) (f : Slot → Slot) :
    (p.modifySlot i f).slot? j = if i = j then (p.slot? j).map f else p.slot? j := tableGet_modify _ _ _ _

@[simp] theorem Plan.slot?_modifySlot_self (p : Plan) (i : Nat) (f : Slot → Slot) :
    (p.modifySlot i f).slot? i = (p.slot? i).map f := by simp [Plan.slot?_modifySlot]

theorem Plan.slot?_modifySlot_ne (p : Plan) {i j : Nat} (h : i ≠ j) (f : Slot → Slot) :
    (p.modifySlot i f).slot? j = p.slot? j := by simp [Plan.slot?_modifySlot, h]

theorem Plan.slot?_putSlot (p : Plan) (i j : Nat) (x : Slot) :
    (p.putSlot i x).slot? j = if i = j then some x else p.slot? j := tableGet_put _ _ _ _

@[simp] theorem Plan.slot?_putSlot_self (p : Plan) (i : Nat) (x : Slot) : (p.putSlot i x).slot? i = some x := by
  simp [Plan.slot?_putSlot]

theorem Plan.slot?_eraseSlot {p : Plan} (h : tableWf p.slots) (i j : Nat) :
    (p.eraseSlot i).slot? j = if i = j then none else p.slot? j := tableGet_erase h.1 _ _

@[simp] theorem Plan.slot?_modifyWall (p : Plan) (w j : Nat) (f : Wall → Wall) :
    (p.modifyWall w f).slot? j = p.slot? j := rfl

@[simp] theorem Plan.slot?_setType (p : Plan) (t j : Nat) (b : BrickType) : (p.setType t b).slot? j = p.slot? j := rfl

theorem Plan.stateOf_of_slot? {p : Plan} {i : Nat} {x : Slot} (h : p.slot? i = some x) : p.stateOf i = x.state := by
  simp [Plan.stateOf, h]

theorem Plan.stateOf_of_none {p : Plan} {i : Nat} (h : p.slot? i = none) : p.stateOf i = .empty := by
  simp [Plan.stateOf, h]

/-- The state of a slot depends on its record alone. -/
theorem Plan.stateOf_congr {p q : Plan} {i : Nat} (h : p.slot? i = q.slot? i) : p.stateOf i = q.stateOf i := by
  simp [Plan.stateOf, h]

/-- A state other than Empty is the state of a record. -/
theorem Plan.slot?_of_stateOf {p : Plan} {i : Nat} {st : SlotState} (h : p.stateOf i = st) (hne : st ≠ .empty) :
    ∃ x, p.slot? i = some x ∧ x.state = st := by
  unfold Plan.stateOf at h
  split at h
  · exact absurd h.symm hne
  · exact ⟨_, ‹_›, h⟩

theorem Plan.mem_slots_iff {p : Plan} (h : tableWf p.slots) {i : Nat} {x : Slot} :
    (i, x) ∈ p.slots ↔ p.slot? i = some x := (tableGet_eq_some h.1).symm

theorem Plan.mem_indices {p : Plan} {i : Nat} : i ∈ p.indices ↔ (p.slot? i).isSome := mem_keys_iff

@[simp] theorem Plan.indices_modifySlot (p : Plan) (i : Nat) (f : Slot → Slot) :
    (p.modifySlot i f).indices = p.indices := tableModify_keys _ _ _

/-! ### Walls -/

theorem Plan.wall_modifyWall (p : Plan) (w v : Nat) (f : Wall → Wall) :
    (p.modifyWall w f).wall v = if w = v ∧ v < Config.wallCount then f (p.wall v) else p.wall v := by
  by_cases h : w = v
  · subst h
    by_cases hv : w < Config.wallCount <;> simp [Plan.wall, Plan.modifyWall, hv]
  · simp [Plan.wall, Plan.modifyWall, h]

theorem Plan.wall_modifyWall_self (p : Plan) {w : Nat} (h : w < Config.wallCount) (f : Wall → Wall) :
    (p.modifyWall w f).wall w = f (p.wall w) := by simp [Plan.wall_modifyWall, h]

theorem Plan.wall_modifyWall_ne (p : Plan) {w v : Nat} (h : w ≠ v) (f : Wall → Wall) :
    (p.modifyWall w f).wall v = p.wall v := by simp [Plan.wall_modifyWall, h]

@[simp] theorem Plan.wall_modifySlot (p : Plan) (i v : Nat) (f : Slot → Slot) :
    (p.modifySlot i f).wall v = p.wall v := rfl

@[simp] theorem Plan.wall_putSlot (p : Plan) (i v : Nat) (x : Slot) : (p.putSlot i x).wall v = p.wall v := rfl

@[simp] theorem Plan.wall_eraseSlot (p : Plan) (i v : Nat) : (p.eraseSlot i).wall v = p.wall v := rfl

@[simp] theorem Plan.wall_setType (p : Plan) (t v : Nat) (b : BrickType) : (p.setType t b).wall v = p.wall v := rfl

/-! ### The catalogue -/

theorem Plan.brickType_setType (p : Plan) (t u : Nat) (b : BrickType) :
    (p.setType t b).brickType u = if t = u ∧ u < Config.typeCount then b else p.brickType u := by
  by_cases h : t = u
  · subst h
    by_cases hv : t < Config.typeCount <;> simp [Plan.brickType, Plan.setType, hv]
  · simp [Plan.brickType, Plan.setType, h]

@[simp] theorem Plan.brickType_modifySlot (p : Plan) (i t : Nat) (f : Slot → Slot) :
    (p.modifySlot i f).brickType t = p.brickType t := rfl

@[simp] theorem Plan.brickType_putSlot (p : Plan) (i t : Nat) (x : Slot) :
    (p.putSlot i x).brickType t = p.brickType t := rfl

@[simp] theorem Plan.brickType_eraseSlot (p : Plan) (i t : Nat) : (p.eraseSlot i).brickType t = p.brickType t := rfl

@[simp] theorem Plan.brickType_modifyWall (p : Plan) (w t : Nat) (f : Wall → Wall) :
    (p.modifyWall w f).brickType t = p.brickType t := rfl

/-! ### The canonical form -/

theorem tableWf_reset : tableWf State.reset.plan.slots := by decide

@[simp] theorem Plan.slots_modifyWall (p : Plan) (w : Nat) (f : Wall → Wall) : (p.modifyWall w f).slots = p.slots := rfl

@[simp] theorem Plan.slots_setType (p : Plan) (t : Nat) (b : BrickType) : (p.setType t b).slots = p.slots := rfl

theorem Plan.tableWf_modifySlot {p : Plan} (h : tableWf p.slots) {i : Nat} {f : Slot → Slot}
    (hf : ∀ x, p.slot? i = some x → (f x).state ≠ .empty) : tableWf (p.modifySlot i f).slots := tableWf_modify h hf

theorem Plan.tableWf_putSlot {p : Plan} (h : tableWf p.slots) {i : Nat} {x : Slot} (hi : i < Config.slotCount)
    (hx : x.state ≠ .empty) : tableWf (p.putSlot i x).slots := tableWf_put h hi hx

theorem Plan.tableWf_eraseSlot {p : Plan} (h : tableWf p.slots) (i : Nat) : tableWf (p.eraseSlot i).slots :=
  tableWf_erase h i

end Sys2Proof.Machine
end

