-- ==== Sys2Proof/Laws/Judge.lean ====
section
/-! SUPPORT. Readiness judgement: the conditions of R26 read nothing that a judgement changes, so a cause that
re-judges several slots is one simultaneous update (`State.rejudge_eq`), whatever the order (R27). -/

namespace Sys2Proof.Machine

open Sys2Proof

/-! ### What the conditions read -/

/-- Planned and Ready are one for every condition that reads another slot (R27). -/
def SlotState.waiting (st : SlotState) : Bool := st == .planned || st == .ready

/-- Two plans agree on everything the conditions of R26 read of other records. -/
structure Plan.Agrees (p q : Plan) : Prop where
  walls : p.walls = q.walls
  states : ∀ j, p.stateOf j = q.stateOf j ∨ ((p.stateOf j).waiting = true ∧ (q.stateOf j).waiting = true)

theorem Plan.Agrees.refl (p : Plan) : p.Agrees p := ⟨rfl, fun _ => .inl rfl⟩

theorem Plan.Agrees.trans {p q r : Plan} (h : p.Agrees q) (k : q.Agrees r) : p.Agrees r := by
  refine ⟨h.walls.trans k.walls, fun j => ?_⟩
  rcases h.states j with h1 | h1 <;> rcases k.states j with h2 | h2
  · exact .inl (h1.trans h2)
  · exact .inr ⟨h1 ▸ h2.1, h2.2⟩
  · exact .inr ⟨h1.1, h2 ▸ h1.2⟩
  · exact .inr ⟨h1.1, h2.2⟩

theorem Plan.Agrees.isLaid {p q : Plan} (h : p.Agrees q) (j : Nat) : p.isLaid j = q.isLaid j := by
  unfold Plan.isLaid
  rcases h.states j with h | ⟨h1, h2⟩
  · rw [h]
  · revert h1 h2; cases p.stateOf j <;> cases q.stateOf j <;> decide

theorem Plan.Agrees.isSet {p q : Plan} (h : p.Agrees q) (j : Nat) : (p.stateOf j == .set) = (q.stateOf j == .set) := by
  rcases h.states j with h | ⟨h1, h2⟩
  · rw [h]
  · revert h1 h2; cases p.stateOf j <;> cases q.stateOf j <;> decide

theorem Plan.Agrees.isClaimed {p q : Plan} (h : p.Agrees q) (j : Nat) :
    (p.stateOf j != .claimed) = (q.stateOf j != .claimed) := by
  rcases h.states j with h | ⟨h1, h2⟩
  · rw [h]
  · revert h1 h2; cases p.stateOf j <;> cases q.stateOf j <;> decide

/-- The conditions give one answer on plans that agree. -/
theorem Plan.Agrees.readyConditions {p q : Plan} (h : p.Agrees q) (st : Option Nat) (x : Slot) :
    p.readyConditions st x = q.readyConditions st x := by
  have hw : ∀ w, p.wall w = q.wall w := fun w => by simp [Plan.wall, h.walls]
  simp [Plan.readyConditions, Plan.supportsSet, Plan.rightNotClaimed, Plan.rightLaid, Plan.leftClosed, hw,
    h.isLaid, h.isSet, h.isClaimed]

theorem Plan.Agrees.judged {p q : Plan} (h : p.Agrees q) (st : Option Nat) (x : Slot) :
    p.judged st x = q.judged st x := by
  simp [Plan.judged, h.readyConditions]

theorem Plan.Agrees.turnsReady {p q : Plan} (h : p.Agrees q) (st : Option Nat) (x : Slot) :
    p.turnsReady st x = q.turnsReady st x := by
  simp [Plan.turnsReady, h.readyConditions]

/-- Condition 1 holds alike for Planned and Ready, and nothing else reads the slot's own state. -/
theorem Plan.readyConditions_state (p : Plan) (st : Option Nat) (x : Slot) (y : SlotState)
    (hx : x.state.waiting = true) (hy : y.waiting = true) :
    p.readyConditions st { x with state := y } = p.readyConditions st x := by
  unfold SlotState.waiting at hx hy
  simp only [Plan.readyConditions, Plan.supportsSet, Plan.rightNotClaimed, Plan.rightLaid, Plan.leftClosed, inReach,
    hx, hy]

/-- Slots that meet the conditions are Planned or Ready. -/
theorem Plan.waiting_of_readyConditions {p : Plan} {st : Option Nat} {x : Slot} (h : p.readyConditions st x = true) :
    x.state.waiting = true := by
  simp only [Plan.readyConditions, Bool.and_eq_true] at h
  exact h.1.1.1.1.1.1

/-! ### One judgement -/

@[simp] theorem Plan.judged_wall (p : Plan) (st : Option Nat) (x : Slot) : (p.judged st x).wall = x.wall := by
  unfold Plan.judged; split <;> rfl

@[simp] theorem Plan.judged_course (p : Plan) (st : Option Nat) (x : Slot) : (p.judged st x).course = x.course := by
  unfold Plan.judged; split <;> rfl

theorem Plan.judged_eq (p : Plan) (st : Option Nat) (x : Slot) :
    p.judged st x = { x with state := (p.judged st x).state } := by
  unfold Plan.judged; split <;> rfl

theorem Plan.judged_of_not_waiting {p : Plan} {st : Option Nat} {x : Slot} (h : x.state.waiting = false) :
    p.judged st x = x := by
  unfold Plan.judged; rw [if_neg]; rintro (h' | h') <;> simp [SlotState.waiting, h'] at h

theorem Plan.judged_waiting {p : Plan} {st : Option Nat} {x : Slot} (h : x.state.waiting = true) :
    (p.judged st x).state.waiting = true := by
  have : x.state = .planned ∨ x.state = .ready := by simpa [SlotState.waiting] using h
  unfold Plan.judged; rw [if_pos this]; dsimp only; split <;> rfl

/-- A judgement moves a state only between Planned and Ready. -/
theorem Plan.judged_state_cases (p : Plan) (st : Option Nat) (x : Slot) :
    (p.judged st x).state = x.state ∨
      (x.state.waiting = true ∧ (p.judged st x).state.waiting = true) := by
  cases h : x.state.waiting
  · rw [Plan.judged_of_not_waiting h]; exact .inl rfl
  · exact .inr ⟨rfl, Plan.judged_waiting h⟩

theorem Plan.judged_idem (p : Plan) (st : Option Nat) (x : Slot) : p.judged st (p.judged st x) = p.judged st x := by
  cases h : x.state.waiting
  · rw [Plan.judged_of_not_waiting h, Plan.judged_of_not_waiting h]
  · have h2 : x.state = .planned ∨ x.state = .ready := by simpa [SlotState.waiting] using h
    have hr : p.readyConditions st (p.judged st x) = p.readyConditions st x := by
      rw [Plan.judged_eq]; exact Plan.readyConditions_state p st x _ h (Plan.judged_waiting h)
    have h3 : (p.judged st x).state = .planned ∨ (p.judged st x).state = .ready := by
      simpa [SlotState.waiting] using Plan.judged_waiting (p := p) (st := st) h
    rw [Plan.judged, if_pos h3, hr]
    unfold Plan.judged; rw [if_pos h2]

/-! ### The plan after a cause -/

@[simp] theorem Plan.rejudged_walls (p : Plan) (st : Option Nat) (ids : List Nat) :
    (p.rejudged st ids).walls = p.walls := rfl

@[simp] theorem Plan.rejudged_types (p : Plan) (st : Option Nat) (ids : List Nat) :
    (p.rejudged st ids).types = p.types := rfl

@[simp] theorem Plan.rejudged_wall (p : Plan) (st : Option Nat) (ids : List Nat) (w : Nat) :
    (p.rejudged st ids).wall w = p.wall w := rfl

@[simp] theorem Plan.rejudged_brickType (p : Plan) (st : Option Nat) (ids : List Nat) (t : Nat) :
    (p.rejudged st ids).brickType t = p.brickType t := rfl

/-- A table whose records are changed one by one reads as the changed records. -/
theorem tableGet_map (t : SlotTable) (g : Nat → Slot → Slot) (j : Nat) :
    tableGet (t.map fun e => (e.1, g e.1 e.2)) j = (tableGet t j).map (g j) := by
  induction t with
  | nil => rfl
  | cons e t ih =>
    rw [List.map_cons, tableGet_cons, tableGet_cons]
    split
    · rename_i h; dsimp only at h; subst h; simp
    · rename_i h; dsimp only at h; simp [ih]

theorem keys_map (t : SlotTable) (g : Nat → Slot → Slot) :
    (t.map fun e => (e.1, g e.1 e.2)).map Prod.fst = t.map Prod.fst := by
  simp [List.map_map, Function.comp_def]

/-- What a slot reads as after a cause: judged where the cause names it, else as it was. -/
theorem Plan.slot?_rejudged (p : Plan) (st : Option Nat) (ids : List Nat) (j : Nat) :
    (p.rejudged st ids).slot? j
      = (p.slot? j).map fun x => if ids.contains j then p.judged st x else x :=
  tableGet_map p.slots (fun i x => if ids.contains i then p.judged st x else x) j

theorem Plan.indices_rejudged (p : Plan) (st : Option Nat) (ids : List Nat) :
    (p.rejudged st ids).indices = p.indices :=
  keys_map p.slots fun i x => if ids.contains i then p.judged st x else x

theorem Plan.agrees_rejudged (p : Plan) (st : Option Nat) (ids : List Nat) : p.Agrees (p.rejudged st ids) := by
  refine ⟨rfl, fun j => ?_⟩
  unfold Plan.stateOf
  rw [Plan.slot?_rejudged]
  cases h : p.slot? j with
  | none => exact .inl rfl
  | some x =>
    simp only [Option.map_some]
    split
    · rcases p.judged_state_cases st x with h | h
      · exact .inl h.symm
      · exact .inr h
    · exact .inl rfl

theorem Plan.tableWf_rejudged {p : Plan} (h : tableWf p.slots) (st : Option Nat) (ids : List Nat) :
    tableWf (p.rejudged st ids).slots := by
  refine ⟨?_, ?_⟩
  · have := keys_map p.slots fun i x => if ids.contains i then p.judged st x else x
    rw [Plan.rejudged]; dsimp only; rw [this]; exact h.1
  · intro e he
    obtain ⟨d, hd, rfl⟩ := List.mem_map.1 he
    refine ⟨(h.2 d hd).1, ?_⟩
    dsimp only
    split
    · rcases p.judged_state_cases st d.2 with hs | hs
      · rw [hs]; exact (h.2 d hd).2
      · intro hc; rw [hc] at hs; exact absurd hs.2 (by decide)
    · exact (h.2 d hd).2

theorem Plan.rejudged_nil (p : Plan) (st : Option Nat) : p.rejudged st [] = p := by
  simp [Plan.rejudged]

/-- Judging in two lots is judging at once. -/
theorem Plan.rejudged_append (p : Plan) (st : Option Nat) (ids more : List Nat) :
    (p.rejudged st ids).rejudged st more = p.rejudged st (ids ++ more) := by
  have hj : ∀ x, (p.rejudged st ids).judged st x = p.judged st x := fun x =>
    ((p.agrees_rejudged st ids).judged st x).symm
  have hs : ∀ e : Nat × Slot,
      (if more.contains e.1 then (p.rejudged st ids).judged st (if ids.contains e.1 then p.judged st e.2 else e.2)
        else (if ids.contains e.1 then p.judged st e.2 else e.2))
      = if (ids ++ more).contains e.1 then p.judged st e.2 else e.2 := by
    intro e
    by_cases h1 : ids.contains e.1 = true <;> by_cases h2 : more.contains e.1 = true <;>
      simp_all [p.judged_idem]
  unfold Plan.rejudged at *
  simp only [List.map_map]
  congr 1
  apply List.map_congr_left
  intro e _
  exact congrArg (Prod.mk e.1) (hs e)

/-! ### Presenting -/

/-- A watch reads a slot's wall and course alone (R159). -/
theorem Events.present_congr {x y : Slot} (hw : x.wall = y.wall) (hc : x.course = y.course) (i : Nat)
    (st : SlotState) (time : Option Nat) (e : Events) : e.present i x st time = e.present i y st time := by
  simp [Events.present, Watch.fits, hw, hc]

theorem State.present_of_slot? {s : State} {i : Nat} {x : Slot} (h : s.plan.slot? i = some x) (st : SlotState) :
    s.present i st = { s with events := s.events.present i x st s.clock } := by
  simp [State.present, h]

/-- A slot of the plan enters a state that a watch can name: its record changes and it is presented. -/
theorem State.enter_of_slot? {s : State} {i : Nat} {x : Slot} (h : s.plan.slot? i = some x) (st : SlotState)
    (f : Slot → Slot) :
    s.enter i st f = { s with
      plan := s.plan.modifySlot i fun x => { f x with state := st }
      events := s.events.present i (f x) st s.clock } := by
  have h2 : (s.modifySlot i fun x => { f x with state := st }).plan.slot? i = some { f x with state := st } := by
    simp [h]
  unfold State.enter
  rw [State.present_of_slot? h2]
  simp only [State.modifySlot_events, State.modifySlot_clock, State.modifySlot_plan]
  rw [Events.present_congr (x := { f x with state := st }) (y := f x) rfl rfl]
  rfl

/-! ### One slot judged -/

/-- Changing the record at an index is changing the records listed there. -/
theorem modify_eq_map {t : SlotTable} (hs : tableSorted t) {i : Nat} {x : Slot} (hx : tableGet t i = some x)
    (f : Slot → Slot) (y : Slot) (hy : f x = y) :
    tableModify t i f = t.map fun e => (e.1, if [i].contains e.1 then y else e.2) := by
  apply List.map_congr_left
  intro e he
  by_cases h : e.1 = i
  · have : e.2 = x := by
      have := tableGet_of_mem hs (show (i, e.2) ∈ t from h ▸ he)
      rw [hx] at this; exact (Option.some.inj this).symm
    simp [h, this, hy]
  · simp [h]

/-- Judging one slot is the cause that names it alone, but for the queue. -/
theorem State.judge_eq {s : State} (hs : tableSorted s.plan.slots) (i : Nat) :
    s.judge i = { s with
      plan := s.plan.rejudged s.dispatcher.station [i]
      events := s.events.presentAll (s.plan.newlyReady s.dispatcher.station [i]) .ready s.clock } := by
  unfold State.judge
  cases hx : s.plan.slot? i with
  | none =>
    have hno : ∀ e ∈ s.plan.slots, e.1 ≠ i := by
      intro e he h
      have := tableGet_of_mem hs (show (i, e.2) ∈ s.plan.slots from h ▸ he)
      rw [show tableGet s.plan.slots i = none from hx] at this; cases this
    have h1 : s.plan.rejudged s.dispatcher.station [i] = s.plan := by
      unfold Plan.rejudged
      have : (s.plan.slots.map fun e => (e.1, if [i].contains e.1 then s.plan.judged s.dispatcher.station e.2 else e.2))
          = s.plan.slots := by
        conv_rhs => rw [← List.map_id s.plan.slots]
        apply List.map_congr_left
        intro e he
        simp [hno e he]
      rw [this]
    have h2 : s.plan.newlyReady s.dispatcher.station [i] = [] := by
      unfold Plan.newlyReady
      rw [List.filter_eq_nil_iff]
      intro e he
      simp [hno e he]
    simp [h1, h2, Events.presentAll]
  | some x =>
    have hmem := mem_of_tableGet hx
    have hnew : s.plan.newlyReady s.dispatcher.station [i]
        = if s.plan.turnsReady s.dispatcher.station x then [(i, x)] else [] := by
      unfold Plan.newlyReady
      have : ∀ t : SlotTable, tableSorted t → tableGet t i = some x →
          t.filter (fun e => [i].contains e.1 && s.plan.turnsReady s.dispatcher.station e.2)
            = if s.plan.turnsReady s.dispatcher.station x then [(i, x)] else [] := by
        intro t ht hg
        induction t with
        | nil => cases hg
        | cons e t ih =>
          rw [tableSorted_cons] at ht
          rw [tableGet_cons] at hg
          by_cases he : e.1 = i
          · rw [if_pos he] at hg
            have hno : t.filter (fun e => [i].contains e.1 && s.plan.turnsReady s.dispatcher.station e.2) = [] := by
              rw [List.filter_eq_nil_iff]
              intro d hd
              have := ht.1 d hd
              have : d.1 ≠ i := by omega
              simp [this]
            have hex : e = (i, x) := Prod.ext he (Option.some.inj hg)
            subst hex
            rw [List.filter_cons, hno]
            simp
          · rw [if_neg he] at hg
            rw [List.filter_cons, if_neg (by simp [he])]
            exact ih ht.2 hg
      exact this _ hs hx
    have hplan : ∀ y : Slot, s.plan.judged s.dispatcher.station x = y → ∀ f : Slot → Slot, f x = y →
        s.plan.modifySlot i f = s.plan.rejudged s.dispatcher.station [i] := by
      intro y hy f hf
      unfold Plan.modifySlot Plan.rejudged
      rw [modify_eq_map hs hx f y hf]
      congr 1
      apply List.map_congr_left
      intro e he
      by_cases h : e.1 = i
      · have : e.2 = x := by
          have := tableGet_of_mem hs (show (i, e.2) ∈ s.plan.slots from h ▸ he)
          rw [show tableGet s.plan.slots i = some x from hx] at this; exact (Option.some.inj this).symm
        simp [h, this, hy]
      · simp [h]
    have hself : s.plan.judged s.dispatcher.station x = x → s.plan = s.plan.rejudged s.dispatcher.station [i] := by
      intro h
      rw [← hplan x h id rfl]
      unfold Plan.modifySlot tableModify
      simp
    dsimp only
    split
    · rename_i hst
      by_cases hc : s.plan.readyConditions s.dispatcher.station x = true
      · have ht : s.plan.turnsReady s.dispatcher.station x = true := by simp [Plan.turnsReady, hst, hc]
        have hj : s.plan.judged s.dispatcher.station x = { x with state := .ready } := by
          simp [Plan.judged, hst, hc]
        rw [if_pos hc, State.enter_of_slot? hx, hnew, if_pos ht, hplan _ hj (fun x =>
            { id x with state := .ready }) rfl]
        rfl
      · have ht : s.plan.turnsReady s.dispatcher.station x = false := by simp [Plan.turnsReady, hc]
        have hj : s.plan.judged s.dispatcher.station x = x := by
          obtain ⟨st, _⟩ := x; simp at hst; subst hst; simp [Plan.judged, hc]
        rw [if_neg hc, hnew, ht, ← hself hj]
        rfl
    · rename_i hst
      have ht : s.plan.turnsReady s.dispatcher.station x = false := by simp [Plan.turnsReady, hst]
      by_cases hc : s.plan.readyConditions s.dispatcher.station x = true
      · have hj : s.plan.judged s.dispatcher.station x = x := by
          obtain ⟨st, _⟩ := x; simp at hst; subst hst; simp [Plan.judged, hc]
        rw [if_pos hc, hnew, ht, ← hself hj]
        rfl
      · have hj : s.plan.judged s.dispatcher.station x = { x with state := .planned } := by
          simp [Plan.judged, hst, hc]
        rw [if_neg hc, hnew, ht]
        unfold State.modifySlot
        rw [hplan _ hj (fun y => { y with state := .planned }) rfl]
        rfl
    · rename_i h1 h2
      have hw : x.state.waiting = false := by
        cases hst : x.state <;> simp_all [SlotState.waiting]
      have ht : s.plan.turnsReady s.dispatcher.station x = false := by
        cases hst : x.state <;> simp_all [Plan.turnsReady]
      rw [hnew, ht, ← hself (Plan.judged_of_not_waiting hw)]
      rfl

/-! ### A cause -/

theorem Plan.slot?_rejudged_of_not_mem (p : Plan) (st : Option Nat) {ids : List Nat} {j : Nat} (h : j ∉ ids) :
    (p.rejudged st ids).slot? j = p.slot? j := by
  rw [Plan.slot?_rejudged]
  simp only [List.contains_iff_mem, h, if_false]
  exact Option.map_id'

theorem Events.presentAll_append (l m : SlotTable) (st : SlotState) (time : Option Nat) (e : Events) :
    e.presentAll (l ++ m) st time = (e.presentAll l st time).presentAll m st time := by
  simp [Events.presentAll, List.foldl_append]

/-- Judging a list of listed slots one after another (R27). -/
theorem State.foldl_judge {s : State} (hs : tableWf s.plan.slots) (t : SlotTable) (hn : (t.map Prod.fst).Nodup)
    (ht : ∀ e ∈ t, s.plan.slot? e.1 = some e.2) :
    (t.map Prod.fst).foldl State.judge s = { s with
      plan := s.plan.rejudged s.dispatcher.station (t.map Prod.fst)
      events := s.events.presentAll (t.filter fun e => s.plan.turnsReady s.dispatcher.station e.2)
          .ready s.clock } := by
  induction t generalizing s with
  | nil => simp [Plan.rejudged_nil, Events.presentAll]
  | cons e t ih =>
    rw [List.map_cons, List.nodup_cons] at hn
    rw [List.map_cons, List.foldl_cons, State.judge_eq hs.1]
    have hx := ht e List.mem_cons_self
    have hnew : s.plan.newlyReady s.dispatcher.station [e.1]
        = [e].filter fun d => s.plan.turnsReady s.dispatcher.station d.2 := by
      have hsort := hs.1
      unfold Plan.newlyReady
      have : ∀ u : SlotTable, tableSorted u → tableGet u e.1 = some e.2 →
          u.filter (fun d => [e.1].contains d.1 && s.plan.turnsReady s.dispatcher.station d.2)
            = [e].filter fun d => s.plan.turnsReady s.dispatcher.station d.2 := by
        intro u hu hg
        induction u with
        | nil => cases hg
        | cons d u ih2 =>
          rw [tableSorted_cons] at hu
          rw [tableGet_cons] at hg
          by_cases hd : d.1 = e.1
          · rw [if_pos hd] at hg
            have hno : u.filter (fun d => [e.1].contains d.1 && s.plan.turnsReady s.dispatcher.station d.2) = [] := by
              rw [List.filter_eq_nil_iff]
              intro c hc
              have := hu.1 c hc
              have : c.1 ≠ e.1 := by omega
              simp [this]
            have hex : d = e := Prod.ext hd (Option.some.inj hg)
            subst hex
            rw [List.filter_cons, hno]
            simp [List.filter_cons]
          · rw [if_neg hd] at hg
            rw [List.filter_cons, if_neg (by simp [hd])]
            exact ih2 hu.2 hg
      exact this _ hsort hx
    rw [ih]
    · have hag := s.plan.agrees_rejudged s.dispatcher.station [e.1]
      have htr : ∀ x, (s.plan.rejudged s.dispatcher.station [e.1]).turnsReady s.dispatcher.station x
          = s.plan.turnsReady s.dispatcher.station x := fun x => (hag.turnsReady _ x).symm
      simp only [htr, Plan.rejudged_append, List.singleton_append, hnew, ← Events.presentAll_append,
        ← List.filter_append]
    · exact Plan.tableWf_rejudged hs _ _
    · exact hn.2
    · intro d hd
      dsimp only
      rw [Plan.slot?_rejudged_of_not_mem]
      · exact ht d (List.mem_cons_of_mem _ hd)
      · rw [List.mem_singleton]
        intro h
        exact hn.1 (List.mem_map.2 ⟨d, hd, h⟩)

/-- A cause re-judges all its slots at once (R27, R38, R160). -/
theorem State.rejudge_eq {s : State} (hs : tableWf s.plan.slots) (ids : List Nat) :
    s.rejudge ids = s.afterJudging ids := by
  have hl : s.plan.indices.filter (fun i => ids.contains i)
      = (s.plan.slots.filter fun e => ids.contains e.1).map Prod.fst := by
    unfold Plan.indices; rw [List.filter_map]; rfl
  have hsub : (s.plan.slots.filter fun e => ids.contains e.1).Sublist s.plan.slots := List.filter_sublist
  unfold State.rejudge
  rw [hl, State.foldl_judge hs _ (tableSorted.sublist hs.1 hsub).nodup]
  · have hp : s.plan.rejudged s.dispatcher.station ((s.plan.slots.filter fun e => ids.contains e.1).map Prod.fst)
        = s.plan.rejudged s.dispatcher.station ids := by
      unfold Plan.rejudged
      congr 1
      apply List.map_congr_left
      intro e he
      have : ((s.plan.slots.filter fun e => ids.contains e.1).map Prod.fst).contains e.1 = ids.contains e.1 := by
        rw [Bool.eq_iff_iff]
        simp only [List.contains_iff_mem, List.mem_map, List.mem_filter]
        constructor
        · rintro ⟨d, ⟨_, hd⟩, h⟩; rw [← h]; simpa using hd
        · intro h; exact ⟨e, ⟨he, by simpa using h⟩, rfl⟩
      rw [this]
    have hn : (s.plan.slots.filter fun e => ids.contains e.1).filter
          (fun e => s.plan.turnsReady s.dispatcher.station e.2)
        = s.plan.newlyReady s.dispatcher.station ids := by
      unfold Plan.newlyReady
      rw [List.filter_filter]
      apply List.filter_congr
      intro e _
      rw [Bool.and_comm]
    rw [hp, hn]
    rfl
  · intro e he
    exact tableGet_of_mem hs.1 (List.mem_filter.1 he).1

end Sys2Proof.Machine
end

