-- ==== Sys2Proof/Laws/Queue.lean ====
section
/-! SUPPORT. The readiness conditions as propositions (R26), the dispatch key as an order (R37), and the Ready slots in
their order (R38). -/

namespace Sys2Proof.Machine

open Sys2Proof

/-- The test of the conditions says what the table of R26 says. -/
theorem Plan.readyConditions_iff (p : Plan) (st : Option Nat) (x : Slot) :
    p.readyConditions st x = true ↔ x.state.waiting = true ∧ p.readyUnless st x := by
  unfold Plan.readyConditions Plan.readyUnless SlotState.waiting inReach Plan.supportsSet Plan.rightNotClaimed
    Plan.rightLaid Plan.leftClosed Plan.isLaid
  simp only [Bool.and_eq_true, Bool.not_eq_true', beq_iff_eq, Option.any_eq_true, List.all_eq_true,
    Option.all_eq_true, and_assoc]
  refine and_congr_right fun _ => and_congr_right fun _ => and_congr_right fun _ => and_congr ?_
    (and_congr_right fun _ => and_congr (by simp) ?_)
  · constructor <;> rintro ⟨a, b, c⟩ <;> exact ⟨a, by simpa using b, c⟩
  · cases hr : x.right with
    | none => simp
    | some j => cases hl : x.left <;> cases h : (p.stateOf j).laid <;> simp [h]

/-- The comparison of two keys says what the table of R37 says. -/
theorem Plan.key_before_iff (p : Plan) (a b : Nat × Slot) :
    (p.key a).before (p.key b) = true ↔ p.keyBefore a.1 a.2 b.1 b.2 := by
  unfold Key.before Plan.key Plan.keyBefore
  dsimp only
  split_ifs <;> simp <;> omega

/-- The order by which the Ready slots are sorted: the later key is not smaller. -/
def Plan.keyLe (p : Plan) (a b : Nat × Slot) : Prop := (p.key b).before (p.key a) = false

theorem Plan.keyLe_total (p : Plan) (a b : Nat × Slot) : p.keyLe a b ∨ p.keyLe b a := by
  unfold Plan.keyLe
  simp only [← Bool.not_eq_true, Plan.key_before_iff, Plan.keyBefore]
  omega

theorem Plan.keyLe_trans (p : Plan) (a b c : Nat × Slot) : p.keyLe a b → p.keyLe b c → p.keyLe a c := by
  unfold Plan.keyLe
  simp only [← Bool.not_eq_true, Plan.key_before_iff, Plan.keyBefore]
  omega

/-- Slots of different indices have different keys (part 5 of R37). -/
theorem Plan.keyBefore_of_keyLe (p : Plan) {a b : Nat × Slot} (h : a.1 ≠ b.1) :
    p.keyLe a b → p.keyBefore a.1 a.2 b.1 b.2 := by
  unfold Plan.keyLe
  simp only [← Bool.not_eq_true, Plan.key_before_iff, Plan.keyBefore]
  omega

/-- The Ready slots in ascending key order, with their records. -/
def Plan.readySorted (p : Plan) : SlotTable :=
  p.readySlots.insertionSort fun a b => (p.key b).before (p.key a) = false

theorem Plan.readyOrder_eq (p : Plan) : p.readyOrder = p.readySorted.map Prod.fst := rfl

theorem Plan.readySorted_perm (p : Plan) : p.readySorted.Perm p.readySlots := List.perm_insertionSort _ _

theorem Plan.readySorted_pairwise (p : Plan) : p.readySorted.Pairwise p.keyLe := by
  have h1 : Std.Total (fun a b => (p.key b).before (p.key a) = false) := ⟨p.keyLe_total⟩
  have h2 : IsTrans (Nat × Slot) (fun a b => (p.key b).before (p.key a) = false) := ⟨p.keyLe_trans⟩
  exact List.pairwise_insertionSort (fun a b => (p.key b).before (p.key a) = false) p.readySlots

theorem Plan.mem_readySorted {p : Plan} (hp : tableWf p.slots) {e : Nat × Slot} :
    e ∈ p.readySorted ↔ p.slot? e.1 = some e.2 ∧ e.2.state = .ready := by
  rw [p.readySorted_perm.mem_iff, Plan.readySlots, List.mem_filter, show e = (e.1, e.2) from rfl,
    Plan.mem_slots_iff hp]
  simp

theorem Plan.readyOrder_nodup {p : Plan} (hp : tableWf p.slots) : p.readyOrder.Nodup :=
  (p.readySorted_perm.map Prod.fst).nodup_iff.2 (tableSorted.sublist hp.1 List.filter_sublist).nodup

theorem Plan.mem_readyOrder {p : Plan} (hp : tableWf p.slots) {i : Nat} :
    i ∈ p.readyOrder ↔ ∃ x, p.slot? i = some x ∧ x.state = .ready := by
  rw [Plan.readyOrder_eq, List.mem_map]
  constructor
  · rintro ⟨e, he, rfl⟩; exact ⟨e.2, (Plan.mem_readySorted hp).1 he⟩
  · rintro ⟨x, hx⟩; exact ⟨(i, x), (Plan.mem_readySorted hp).2 hx, rfl⟩

/-- Every queued slot is Ready (R38). -/
theorem Plan.ready_of_mem_queue {p : Plan} (hp : tableWf p.slots) {i : Nat} (h : i ∈ p.queueByLaw) :
    ∃ x, p.slot? i = some x ∧ x.state = .ready :=
  (Plan.mem_readyOrder hp).1 (List.mem_of_mem_take h)

/-- Two sorted forms of the same Ready slots are one: a strict order sorts a set in one way. -/
theorem Plan.sorted_unique {p : Plan} {l m : SlotTable} (hl : l.Pairwise p.keyLe) (hm : m.Pairwise p.keyLe)
    (hn : (l.map Prod.fst).Nodup) (h : l.Perm m) : l = m := by
  refine h.eq_of_pairwise ?_ hl hm
  intro a b ha hb h1 h2
  by_contra hne
  have hab : a.1 ≠ b.1 := fun he => hne (List.inj_on_of_nodup_map hn ha (h.mem_iff.2 hb) he)
  have k1 := p.keyBefore_of_keyLe hab h1
  have k2 := p.keyBefore_of_keyLe (Ne.symm hab) h2
  unfold Plan.keyBefore at k1 k2
  omega

/-- The queue reads the Ready slots and the priorities of their walls, and nothing else. -/
theorem Plan.queueByLaw_congr {p q : Plan} (h : p.readySlots = q.readySlots)
    (hw : ∀ w, (p.wall w).priority = (q.wall w).priority) : p.queueByLaw = q.queueByLaw := by
  have hk : ∀ e, p.key e = q.key e := fun e => by simp [Plan.key, hw]
  simp only [Plan.queueByLaw, Plan.readyOrder, h, hk]

end Sys2Proof.Machine
end

