-- ==== Sys2Proof/Laws/Claim.lean ====
section
/-! SUPPORT. What a Claim does as it scans the queue (R46, R48 to R51). -/

namespace Sys2Proof.Machine

open Sys2Proof

/-- The eligibility test (R49). -/
theorem State.eligible_iff (s : State) (x : Slot) : s.eligible x = true ↔ s.mayBeTaken x := by
  unfold State.eligible State.mayBeTaken Plan.designTop
  simp only [Bool.and_eq_true, Bool.not_eq_true', Bool.and_eq_false_iff, beq_eq_false_iff_ne, decide_eq_false_iff_not]
  refine and_congr_right fun _ => ?_
  have : (((s.plan.wall x.wall).params.base + (x.course + 1) * (s.plan.wall x.wall).params.courseHeight : Nat) :
      Int) - (s.plan.wall x.wall).params.base = (((x.course + 1) * (s.plan.wall x.wall).params.courseHeight :
      Nat) : Int) := by push_cast; ring
  rw [this]
  by_cases h : s.conditions.exposure = .closed <;> simp [h]

/-- Entries that are not eligible are passed over (R49). -/
theorem State.claimScan_pass (s : State) (fuel pos k : Nat)
   (h : ∀ m, pos ≤ m → m < pos + k → ∃ j, s.dispatcher.queue[m]? = some j ∧ ∀ y, s.plan.slot? j = some y →
       s.eligible y = false) :
   s.claimScan (fuel + k) pos = s.claimScan fuel (pos + k) := by
  induction k generalizing pos with
  | zero => rfl
  | succ k ih =>
    obtain ⟨j, hj, hy⟩ := h pos (le_refl _) (by omega)
    rw [← Nat.add_assoc]
    conv_lhs => unfold State.claimScan
    simp only [hj]
    have := ih (pos + 1) (fun m h1 h2 => h m (by omega) (by omega))
    cases hs : s.plan.slot? j with
    | none => simp only; rw [this]; congr 1; omega
    | some y => simp only [hy y hs]; simp only [Bool.false_eq_true, if_false]; rw [this]; congr 1; omega

theorem State.claimRefusal_of_goesOn {s : State} (h : s.claimGoesOn) : s.claimRefusal = none := by
  obtain ⟨h1, h2, h3, h4, h5, h6, h7, h8⟩ := h
  unfold State.claimRefusal
  simp [h1, h2, h3, h4, h5, h6, h8, Config.lineCapacity, h7]

/-- The lowest free tag (R46). -/
theorem State.freeTag_lowest (s : State) (h : s.line.length < 8) : s.freeTag < 8 ∧ (∀ d ∈ s.line,
    d.tag ≠ s.freeTag) ∧ ∀ u < s.freeTag, ∃ d ∈ s.line, d.tag = u := by
  unfold State.freeTag
  have hex : ∃ t ∈ List.range Config.lineCapacity, (!(s.line.any fun c => c.tag == t)) = true := by
    by_contra hno
    push Not at hno
    have hsub : List.range 8 ⊆ s.line.map Carrier.tag := by
      intro t ht
      have := hno t ht
      simp at this
      obtain ⟨c, hc, he⟩ := this
      exact List.mem_map.2 ⟨c, hc, he⟩
    have := (List.nodup_range (n := 8)).subperm hsub |>.length_le
    simp at this
    omega
  cases hf : (List.range Config.lineCapacity).find? fun t => !(s.line.any fun c => c.tag == t) with
  | none =>
    obtain ⟨t, ht, h2⟩ := hex
    rw [List.find?_eq_none] at hf
    exact absurd h2 (hf t ht)
  | some t =>
    simp only [Option.getD_some]
    have h1 := List.find?_some hf
    have h2 := List.mem_of_find?_eq_some hf
    refine ⟨by simpa [Config.lineCapacity] using h2, ?_, fun u hu => ?_⟩
    · simpa using h1
    · rw [List.find?_eq_some_iff_getElem] at hf
      obtain ⟨_, k, hk, hkt, hlt⟩ := hf
      simp at hkt hlt
      subst hkt
      have := hlt u hu
      exact this

/-- A fault at claim, whole (R50). -/
theorem State.faultAtClaim_eq (s : State) (i x r) (hx : s.plan.slot? i = some x) :
   s.faultAtClaim i r = { s with
              plan := s.plan.modifySlot i fun y => { y with state := .fault, faultReason := some r }
              dispatcher := { s.dispatcher with queue := (s.plan.modifySlot i fun y => { y with state := .fault, faultReason := some r }).queueByLaw }
              events := { s.events.present i x .fault s.clock with planFault := true } } := by
  unfold State.faultAtClaim
  rw [State.enter_of_slot? hx, Events.present_congr (x := { x with faultReason := some r }) (y := x) rfl rfl]
  rfl

theorem Plan.readySlots_modifySlot (p : Plan) (i : Nat) (f : Slot → Slot) (hf : ∀ x, (f x).state ≠ .ready) :
   (p.modifySlot i f).readySlots = p.readySlots.filter fun e => e.1 ≠ i := by
  unfold Plan.readySlots Plan.modifySlot tableModify
  dsimp only
  induction p.slots with
  | nil => rfl
  | cons e t ih =>
    rw [List.map_cons, List.filter_cons, ih]
    by_cases h : e.1 = i
    · simp [h, hf, List.filter_cons]
      split <;> simp [h]
    · by_cases h2 : e.2.state = .ready <;> simp [h, h2]

/-- A Ready slot that leaves Ready leaves the order; the others keep their places. -/
theorem Plan.readyOrder_modifySlot {p : Plan} (hp : tableWf p.slots) (i : Nat) (f : Slot → Slot) (hf :
    ∀ x, (f x).state ≠ .ready) (hf2 : ∀ x, (f x).state ≠ .empty) :
   (p.modifySlot i f).readyOrder = p.readyOrder.filter fun j => j ≠ i := by
  have hkey : (p.modifySlot i f).keyLe = p.keyLe := by funext a b; rfl
  have hp2 : tableWf (p.modifySlot i f).slots := Plan.tableWf_modifySlot hp (fun _ _ => hf2 _)
  have : (p.modifySlot i f).readySorted = p.readySorted.filter fun e => e.1 ≠ i := by
    apply Plan.sorted_unique (p := p)
    · rw [← hkey]; exact Plan.readySorted_pairwise _
    · exact p.readySorted_pairwise.sublist List.filter_sublist
    · exact Plan.readyOrder_nodup hp2
    · refine (Plan.readySorted_perm _).trans ?_
      rw [Plan.readySlots_modifySlot p i f hf]
      exact (p.readySorted_perm.filter _).symm
  rw [Plan.readyOrder_eq, this, Plan.readyOrder_eq, List.filter_map]
  rfl

theorem filter_ne_eq_take_drop {l : List Nat} (hn : l.Nodup) {n i : Nat} (h : l[n]? = some i) : l.filter (fun j =>
    j ≠ i) = l.take n ++ l.drop (n+1) := by
  induction l generalizing n with
  | nil => simp at h
  | cons a l ih =>
    rw [List.nodup_cons] at hn
    cases n with
    | zero =>
      simp at h; subst h
      simp
      intro b hb he; exact hn.1 (he ▸ hb)
    | succ n =>
      simp at h
      have hne : a ≠ i := by rintro rfl; exact hn.1 (List.mem_of_getElem? h)
      rw [List.filter_cons, if_pos (by simpa using hne), ih hn.2 h]; rfl

/-- The table and the queue are in form. -/
structure QueueInForm (s : State) : Prop where
  wf : tableWf s.plan.slots
  q : s.queueLaw

theorem QueueInForm.faultAtClaim {s : State} (hs : QueueInForm s) {i r} {x : Slot} (hx : s.plan.slot? i = some x) :
    QueueInForm (s.faultAtClaim i r) := by
  rw [State.faultAtClaim_eq s i x r hx]
  exact ⟨Plan.tableWf_modifySlot hs.1 (fun _ _ => by simp), rfl⟩

/-- The queue after a fault at claim: what stood before the faulted entry stands, and the order is one shorter. -/
theorem State.queue_faultAtClaim {s : State} (hs : QueueInForm s) {n i r} {x : Slot} (hq :
    s.dispatcher.queue[n]? = some i) (hx : s.plan.slot? i = some x) :
   let t := s.faultAtClaim i r
   t.dispatcher.queue.length ≤ s.dispatcher.queue.length ∧ t.plan.readyOrder.length + 1 = s.plan.readyOrder.length
       ∧ (∀ m, m < n → t.dispatcher.queue[m]? = s.dispatcher.queue[m]?)
    ∧ n ≤ t.dispatcher.queue.length := by
  intro t
  have hq2 := hs.q
  unfold State.queueLaw at hq2
  have hlt : n < s.dispatcher.queue.length := (List.getElem?_eq_some_iff.1 hq).1
  have hlt2 : n < 64 ∧ n < s.plan.readyOrder.length := by
    rw [hq2] at hlt; simp [Plan.queueByLaw, Config.queueCapacity] at hlt; exact hlt
  have hro : s.plan.readyOrder[n]? = some i := by
    rw [hq2] at hq
    unfold Plan.queueByLaw at hq
    rw [List.getElem?_take] at hq
    simpa [Config.queueCapacity, hlt2.1] using hq
  have ho : t.plan.readyOrder = s.plan.readyOrder.take n ++ s.plan.readyOrder.drop (n+1) := by
    have : t.plan = s.plan.modifySlot i fun y => { y with state := .fault, faultReason := some r } := by
      simp only [t]; rw [State.faultAtClaim_eq s i x r hx]
    rw [this, Plan.readyOrder_modifySlot hs.1 _ _ (by simp) (by simp),
        filter_ne_eq_take_drop (Plan.readyOrder_nodup hs.1) hro]
  have htq : t.dispatcher.queue = t.plan.readyOrder.take 64 := by
    simp only [t]; rw [State.faultAtClaim_eq s i x r hx]; rfl
  have hsq : s.dispatcher.queue = s.plan.readyOrder.take 64 := hq2
  have hlen : t.plan.readyOrder.length + 1 = s.plan.readyOrder.length := by
    rw [ho]; simp; omega
  refine ⟨?_, hlen, fun m hm => ?_, ?_⟩
  · rw [htq, hsq]; simp; omega
  · rw [htq, hsq, ho, List.getElem?_take, List.getElem?_take, if_pos (by omega), if_pos (by omega),
        List.getElem?_append_left (by simp; omega), List.getElem?_take, if_pos hm]
  · rw [htq]; simp; omega

/-- The scan does not depend on its fuel once there is enough. -/
theorem State.claimScan_fuel (M : Nat) : ∀ (s : State) (pos f1 f2 : Nat), QueueInForm s →
    s.plan.readyOrder.length + (s.dispatcher.queue.length - pos) ≤ M → M < f1 → M < f2 →
    s.claimScan f1 pos = s.claimScan f2 pos := by
  induction M with
  | zero =>
    intro s pos f1 f2 hs hM h1 h2
    obtain ⟨f1, rfl⟩ : ∃ k, f1 = k + 1 := ⟨f1 - 1, by omega⟩
    obtain ⟨f2, rfl⟩ : ∃ k, f2 = k + 1 := ⟨f2 - 1, by omega⟩
    unfold State.claimScan
    have : s.dispatcher.queue[pos]? = none := by
      rw [List.getElem?_eq_none_iff]
      omega
    simp [this]
  | succ M ih =>
    intro s pos f1 f2 hs hM h1 h2
    obtain ⟨f1, rfl⟩ : ∃ k, f1 = k + 1 := ⟨f1 - 1, by omega⟩
    obtain ⟨f2, rfl⟩ : ∃ k, f2 = k + 1 := ⟨f2 - 1, by omega⟩
    unfold State.claimScan
    cases hq : s.dispatcher.queue[pos]? with
    | none => rfl
    | some i =>
      have hlt : pos < s.dispatcher.queue.length := (List.getElem?_eq_some_iff.1 hq).1
      simp only
      cases hx : s.plan.slot? i with
      | none => exact ih s (pos+1) f1 f2 hs (by omega) (by omega) (by omega)
      | some x =>
        simp only
        split
        · split
          · rename_i r hr
            obtain ⟨a, b, c, d⟩ := State.queue_faultAtClaim (r := r) hs hq hx
            exact ih _ pos f1 f2 (QueueInForm.faultAtClaim hs hx) (by omega) (by omega) (by omega)
          · rfl
        · exact ih s (pos+1) f1 f2 hs (by omega) (by omega) (by omega)

theorem Plan.readyOrder_length_le (p : Plan) : p.readyOrder.length ≤ p.slots.length := by
  rw [Plan.readyOrder_eq, List.length_map, p.readySorted_perm.length_eq]
  exact List.length_filter_le _ _

end Sys2Proof.Machine
end

