-- ==== Sys2Proof/Laws/Edits.lean ====
section
/-! SUPPORT. What the operations of plan editing, of the walls and of the Edit Engine come to: ranges as
propositions, edits and judgements as one update. -/

namespace Sys2Proof.Machine

open Sys2Proof

/-- The ranges of R8. -/
theorem WallParams.inRange_iff (p : WallParams) : p.inRange = true ↔ p.meetsRanges := by
  simp only [WallParams.inRange, WallParams.meetsRanges, Machine.inRange, Bool.and_eq_true, decide_eq_true_eq]
  omega

theorem planCutFits_iff (lo hi : Nat) (x : Slot) : planCutFits lo hi x.planCut = true ↔ x.cutBetween lo hi := by
  unfold Slot.cutBetween
  cases h : x.planCut <;> simp [planCutFits, Machine.inRange]

theorem linksInRange_iff (n : Nat) (x : Slot) : linksInRange n x.supports x.left x.right = true ↔ x.linksLawful n := by
  unfold Slot.linksLawful linksInRange
  have hi : ∀ j, isIndex j = true ↔ j ≤ 4095 := by
    intro j
    show decide (j < 4096) = true ↔ _
    rw [decide_eq_true_iff]; omega
  simp only [Bool.and_eq_true, decide_eq_true_eq, List.all_eq_true, hi, Option.all_eq_true, and_assoc]

/-- The ranges of R127 test 5 and R131 test 6. -/
theorem Plan.fieldsInRange_iff (p : Plan) (n : Nat) (x : Slot) : p.fieldsInRange n x = true ↔ p.drawnLawful x n := by
  unfold Plan.fieldsInRange Plan.drawnLawful
  have h1 : Config.positionMax = 200000 := rfl
  have h2 : x.type < Config.typeCount ↔ x.type ≤ 63 := by show _ < 64 ↔ _; omega
  simp only [Bool.and_eq_true, decide_eq_true_eq, planCutFits_iff, linksInRange_iff, h2, and_assoc]
  rw [h1]

/-- The ranges of R129 test 5. -/
theorem Plan.restoreInRange_iff (p : Plan) (n : Nat) (x : Slot) (a : AsLaid) : p.restoreInRange n x a = true ↔
    p.restoredLawful x n a := by
  unfold Plan.restoreInRange Plan.restoredLawful
  have h1 : Config.positionMax = 200000 := rfl
  have h3 : Config.topMax = 500000 := rfl
  have h2 : x.type < Config.typeCount ↔ x.type ≤ 63 := by show _ < 64 ↔ _; omega
  have h4 : x.course < 64 ↔ x.course ≤ 63 := by omega
  have h5 : (if (p.brickType x.type).defined then planCutFits (p.brickType x.type).minCut (p.brickType
      x.type).length x.planCut else planCutFits 100 6000 x.planCut) = true ↔ ((p.brickType x.type).defined = true →
      x.cutBetween (p.brickType x.type).minCut (p.brickType x.type).length)
    ∧ ((p.brickType x.type).defined = false → x.cutBetween 100 6000) := by
    cases (p.brickType x.type).defined <;> simp [planCutFits_iff]
  simp only [Bool.and_eq_true, decide_eq_true_eq, linksInRange_iff, h2, h4, h5, and_assoc]
  rw [h1, h3]
  tauto

/-- The record a load record describes. -/
theorem slotOfFields_planned (f : PlanFields) : slotOfFields f .planned = recordOf f := by
  unfold slotOfFields recordOf
  congr 1
  · simp only [planCutOf]; congr 1; simp [BitVec.toNat_eq]
  · simp only [linkOf]; congr 1; simp [BitVec.toNat_eq]
  · simp only [linkOf]; congr 1; simp [BitVec.toNat_eq]

/-- Two changes of one wall are one. -/
theorem Plan.modifyWall_modifyWall (p : Plan) (w : Nat) (f g : Wall → Wall) :
    (p.modifyWall w f).modifyWall w g = p.modifyWall w (g ∘ f) := by
  unfold Plan.modifyWall
  simp only
  congr 1
  by_cases h : w < Config.wallCount
  · apply Vector.ext; intro i hi
    simp [Vector.getElem_setIfInBounds, Plan.wall, h]
  · apply Vector.ext; intro i hi
    simp [Vector.getElem_setIfInBounds]
    split <;> simp_all

theorem Plan.modifyWall_same (p : Plan) (k : Nat) : p.modifyWall k (fun w => { w with audited := w.audited }) = p := by
  unfold Plan.modifyWall
  have : p.walls.setIfInBounds k (p.wall k) = p.walls := by
    apply Vector.ext; intro j hj
    rw [Vector.getElem_setIfInBounds]
    split
    · rename_i h; subst h; simp [Plan.wall, hj]
    · rfl
  show ({ p with walls := p.walls.setIfInBounds k (p.wall k) } : Plan) = p
  rw [this]

/-- A change of one record depends on that record alone. -/
theorem Plan.modifySlot_const (p : Plan) (hs : tableWf p.slots) (i : Nat) (x : Slot) (hx : p.slot? i = some x) (f :
    Slot → Slot) : p.modifySlot i f = p.modifySlot i fun _ => f x := by
  unfold Plan.modifySlot tableModify
  congr 1
  apply List.map_congr_left
  rintro ⟨j, z⟩ he
  dsimp only
  split
  · rename_i h; subst h
    have := (Plan.mem_slots_iff hs).1 he
    rw [hx] at this; cases this; rfl
  · rfl

/-- An edit, whole (R132, R140). -/
theorem State.editSlot_eq (i : Nat) (x y : Slot) (u : State) (hs : tableWf u.plan.slots) (hy : y.state ≠ .empty) :
    u.editSlot i x y = u.afterEdit i x y := by
  unfold State.editSlot State.afterEdit
  have hh : tableWf (u.plan.modifySlot i fun _ => y).slots := Plan.tableWf_modifySlot hs (fun _ _ => hy)
  have : (if y = x then u.modifySlot i (fun _ => y) else (u.modifySlot i (fun _ =>
      y)).clearAudited x.wall) = ({ u with plan := (u.plan.modifySlot i fun _ => y).modifyWall x.wall fun w =>
    { w with audited := w.audited && decide (y = x) } } : State) := by
    split
    · rename_i h
      simp only [State.modifySlot, h, decide_true, Bool.and_true]
      congr 1
      generalize u.plan.modifySlot i _ = p
      exact (Plan.modifyWall_same p x.wall).symm
    · rename_i h
      simp only [State.modifySlot, h, decide_false, Bool.and_false]
      rfl
  simp only [this]
  rw [State.rejudge_eq]
  exact hh

/-- A sweep's change of a slot, whole (R140). -/
theorem State.sweepChange_eq (i : Nat) (x y : Slot) (u : State) (hs : tableWf u.plan.slots) (hy : y.state ≠ .empty) :
    u.sweepChange i x y = u.afterSweepChange i x y := by
  unfold State.sweepChange State.afterSweepChange
  split
  · exact State.editSlot_eq i x y u hs hy
  · rfl

/-- The withheld flag of a slot, whole (R134). -/
theorem State.setWithheld_eq (i : Nat) (x : Slot) (flag : Bool) (u : State) (hs : tableWf u.plan.slots)
    (hx : u.plan.slot? i = some x) : u.setWithheld i x flag = u.afterWithheld i x flag := by
  have hne : x.state ≠ .empty := state_ne_empty_of_get hs hx
  unfold State.setWithheld State.afterWithheld
  by_cases h : x.state.laid = true ∨ x.withheld = flag
  · rw [if_pos (by simpa using h), if_pos h]
  · rw [if_neg (by simpa using h), if_neg h, State.modifySlot,
      Plan.modifySlot_const u.plan hs i x hx, State.rejudge_eq]
    exact Plan.tableWf_modifySlot hs fun _ _ => hne

/-- The followers of a slot do not change with a record whose supports stand (R3). -/
theorem Plan.followers_modifySlot (p : Plan) (i k : Nat) (f : Slot → Slot) (hf : ∀ x, (f x).supports = x.supports) :
    (p.modifySlot i f).followers k = p.followers k := by
  unfold Plan.followers Plan.modifySlot tableModify
  simp only [List.filter_map, List.map_map]
  have : ((fun e : Nat × Slot => e.2.supports.contains k) ∘ fun e : Nat × Slot => if e.1 = i then (e.1,
      f e.2) else e) = fun e => e.2.supports.contains k := by
    funext e; simp only [Function.comp]; split <;> simp [hf]
  rw [this]
  apply List.map_congr_left
  intro e _; simp only [Function.comp]; split <;> rfl

/-- Some follower is Claimed or laid (R99). -/
theorem Plan.hasBuiltFollower_iff (p : Plan) (hs : tableWf p.slots) (i : Nat) : p.hasBuiltFollower i = true ↔
    ∃ j y, p.slot? j = some y ∧ i ∈ y.supports ∧ (y.state = .claimed ∨ y.state.laid = true) := by
  simp only [Plan.hasBuiltFollower, Plan.followers, List.any_eq_true, List.mem_map, List.mem_filter,
      List.contains_iff_mem]
  constructor
  · rintro ⟨j, ⟨⟨k, y⟩, ⟨h1, h2⟩, rfl⟩, h3⟩
    have h4 := (Plan.mem_slots_iff hs).1 h1
    refine ⟨k, y, h4, h2, ?_⟩
    simpa [Plan.isLaid, Plan.stateOf_of_slot? h4] using h3
  · rintro ⟨j, y, h1, h2, h3⟩
    refine ⟨j, ⟨(j, y), ⟨(Plan.mem_slots_iff hs).2 h1, h2⟩, rfl⟩, ?_⟩
    simpa [Plan.isLaid, Plan.stateOf_of_slot? h1] using h3

/-- The completion test, whole (R95). -/
theorem State.completionTest_eq (s : State) (w : Nat) : s.completionTest w = s.afterCompletion w := by
  unfold State.completionTest State.afterCompletion
  have : s.plan.allSet w = true ↔ ∀ e ∈ s.plan.slots, e.2.wall = w → e.2.state = .set := by
    simp only [Plan.allSet, Plan.slotsOf, List.all_eq_true, List.mem_filter, decide_eq_true_eq, beq_iff_eq, and_imp]
  by_cases h : s.plan.allSet w = true
  · rw [if_pos h, if_pos (this.1 h)]; rfl
  · rw [if_neg h, if_neg (fun h2 => h (this.2 h2))]

/-- Test 4 of R138. -/
theorem SweepCondition.passes_iff (c : SweepCondition) (st : SlotState) : c.passes st = true ↔ (c = .always ∨
    c = .whileIn st ∨ ∃ q, c = .untilIn q ∧ st ≠ q) := by
  cases c <;> simp [SweepCondition.passes]
  exact ⟨Eq.symm, Eq.symm⟩

/-- Step 6 of R138. -/
theorem State.processed_eq (s : State) (c : SweepContext) (i : Nat) (hi : c.index = i) :
    ({ s with engine := .sweep (c.processed i) } : State).setCursor .P i = s.sweepProcessed c i := by
  unfold State.sweepProcessed SweepContext.processed
  simp only [State.setCursor, State.setPort, State.port, hi]
  cases c.direction <;> simp

/-- A step that comes to its operation (R138). -/
theorem sweepStep_of_reaches {s : State} {c : SweepContext} {i : Nat} (h : s.sweepReaches c i) :
    exec .sweepStep s = .next (match s.sweepApply i c.op with
      | .error r => s.endSweep c r
      | .ok s1 => s1.sweepProcessed c i) := by
  obtain ⟨h1, h2, h3, h4, h5, h6⟩ := h
  simp only [exec, execSweepStep, h1, State.sweepStep, h2]
  rw [if_neg (by simp), if_neg h3, if_neg (by rw [h4]; have : (Config.slotCount : Int) = 4096 := rfl; omega)]
  have : c.index.toNat = i := by omega
  simp only [this]
  rw [if_pos ((SweepCondition.passes_iff _ _).2 h6)]
  cases s.sweepApply i c.op with
  | error r => rfl
  | ok s1 => simp only [State.processed_eq s1 c i h4]

/-- The spans of two slots meet where some position lies in both (R144). -/
theorem Plan.overlaps_iff (p : Plan) (x y : Slot) : p.overlaps x y = true ↔ p.spansMeet x y := by
  simp only [Plan.overlaps, Plan.spansMeet, decide_eq_true_eq]
  constructor
  · intro h; exact ⟨max x.designLeft y.designLeft, by omega⟩
  · rintro ⟨n, h⟩; omega

/-- The slots an audit has yet to visit (R143). -/
theorem Plan.unaudited_eq (s : State) (c : AuditContext) : s.plan.unaudited c = s.plan.slots.filter fun e =>
    e.2.wall = c.wall ∧ ∀ l ∈ c.last, l < e.1 := by
  unfold Plan.unaudited Plan.slotsOf
  rw [List.filter_filter]
  apply List.filter_congr
  rintro ⟨i, x⟩ _
  simp [aboveLast]
  cases c.last <;> simp
  · rw [Bool.and_comm]

end Sys2Proof.Machine
end

