-- ==== Sys2Proof/Laws/Line.lean ====
section
/-! SUPPORT. What the operations on the boom line come to (spec/03). -/

namespace Sys2Proof.Machine

open Sys2Proof

theorem State.carrier?_eq_none {s : State} {n : Nat} (h : ∀ d ∈ s.line, d.tag ≠ n) : s.carrier? n = none := by
  simp [State.carrier?]; exact h

theorem State.exists_carrier? {s : State} {n : Nat} (h : ∃ d ∈ s.line, d.tag = n) : ∃ c, s.carrier? n = some c := by
  cases hc : s.carrier? n with
  | some c => exact ⟨c, rfl⟩
  | none =>
    simp [State.carrier?] at hc
    obtain ⟨d, hd, h⟩ := h
    exact absurd h (hc d hd)

/-- The front carrier is the one its tag names. -/
theorem State.carrier?_head {s : State} {c : Carrier} {n : Nat} (h : s.line.head? = some c) (ht : c.tag = n) :
    s.carrier? n = some c := by
  unfold State.carrier?
  cases hl : s.line with
  | nil => simp [hl] at h
  | cons a l => simp [hl] at h; subst h; simp [ht]

theorem State.isFront_head {s : State} {c : Carrier} (h : s.line.head? = some c) : s.isFront c.tag = true := by
  simp [State.isFront, h]

theorem State.modifyCarrier_eq (s : State) (n f) : s.modifyCarrier n f = { s with line := lineWith s.line n f } := by
  simp [State.modifyCarrier, lineWith]

theorem State.removeCarrier_eq (s : State) (n) : s.removeCarrier n = { s with line := lineWithout s.line n } := by
  unfold State.removeCarrier lineWithout
  congr 1
  apply List.filter_congr; intro d _; by_cases h : d.tag = n <;> simp [h]

/-- The ranges of a Laid report (R52). -/
theorem laidInRange_iff (f : LaidFields) : laidInRange f = true ↔ f.left.toNat ≤ 200000 ∧ f.right.toNat ≤ 200000 ∧
    f.topLeft.toNat ≤ 500000 ∧ f.topRight.toNat ≤ 500000 := by
  unfold laidInRange
  rw [show Config.positionMax = 200000 from rfl, show Config.topMax = 500000 from rfl]
  simp only [Bool.and_eq_true, decide_eq_true_eq, and_assoc]

/-- A neighbour that is absent or not laid has no as-laid part to read (R72). -/
theorem Plan.laidPart_eq_none {p : Plan} {l : Option Nat} (h : ∀ j, l = some j → p.isLaid j = false) :
    p.laidPart l = none := by
  cases l with
  | none => rfl
  | some j => simp [Plan.laidPart, h j rfl]

theorem Plan.laidPart_eq_some {p : Plan} {l : Option Nat} {j y a} (h : l = some j) (hy : p.slot? j = some y) (hl :
    y.state.laid = true) (ha : y.asLaid = some a) : p.laidPart l = some a := by
  subst h
  simp [Plan.laidPart, Plan.isLaid, Plan.stateOf, hy, hl, ha]

/-- A brick is laid, whole (R58, R92, R93). -/
theorem State.layBrick_eq (s : State) (c : Carrier) (x : Slot) (st a late) (hx : s.plan.slot? c.slot = some x) :
   s.layBrick c x.wall st a late = s.afterLaying c x st a late := by
  unfold State.layBrick
  have : ((s.removeCarrier c.tag).gainLaid x.wall).plan.slot? c.slot = some x := by simpa [State.gainLaid,
      State.modifyWall, State.removeCarrier] using hx
  rw [State.enter_of_slot? this, State.removeCarrier_eq]
  unfold State.afterLaying
  simp only [State.gainLaid, State.modifyWall]
  rw [Events.present_congr (x := { x with tag := none, asLaid := some a, late := late }) (y := x) rfl rfl]

theorem tableWf_afterLaying {s : State} (hs : tableWf s.plan.slots) {c x a late} {st : SlotState} (hst :
    st ≠ .empty) : tableWf (s.afterLaying c x st a late).plan.slots := by
  unfold State.afterLaying
  exact Plan.tableWf_modifySlot (p := s.plan.modifyWall _ _) (by simpa using hs) (fun _ _ => hst)

end Sys2Proof.Machine
end

