-- ==== Sys2Proof/Laws/Link.lean ====
section
/-! SUPPORT. What a receiver makes of bytes (R170, R171), and of the sources of a port (R163, R164). -/

namespace Sys2Proof.Machine

open Sys2Proof

/-- Bytes received one after another. -/
theorem receiveAll_append (p r a b) : receiveAll p r (a ++ b) =
    let q := receiveAll p r a; ((receiveAll p q.1 b).1, q.2 ++ (receiveAll p q.1 b).2) := by
  have : ∀ (b : List Byte) (r : Receiver) (l : List Instr),
      b.foldl (fun a b => ((receiveByte p a.1 b).1, a.2 ++ (receiveByte p a.1 b).2)) (r, l)
       = ((receiveAll p r b).1, l ++ (receiveAll p r b).2) := by
    intro b
    induction b with
    | nil => intro r l; simp [receiveAll]
    | cons x b ih =>
      intro r l
      simp only [receiveAll, List.foldl_cons, List.nil_append]
      rw [ih, ih (l := (receiveByte p r x).2)]; simp
  simp only [receiveAll, List.foldl_append]
  rw [this]; rfl

theorem receiveAll_cons (p r x b) : receiveAll p r (x :: b) =
    let q := receiveByte p r x; ((receiveAll p q.1 b).1, q.2 ++ (receiveAll p q.1 b).2) := by
  have := receiveAll_append p r [x] b
  simpa [receiveAll] using this

/-- A receiver that collects a frame completes it at its last check byte. -/
theorem receiveAll_collecting (p : Port) (n : Byte) (got rest : List Byte) (h : rest ≠ [])
    (hl : got.length + rest.length = n.toNat + 2) :
    receiveAll p (.collecting (n :: got)) rest = (.hunting, [rowOfFrame p (n :: got ++ rest)]) := by
  induction rest generalizing got with
  | nil => exact absurd rfl h
  | cons b rest ih =>
    rw [receiveAll_cons]
    by_cases hr : rest = []
    · subst hr
      have : frameComplete (n :: got ++ [b]) = true := by
        simp [frameComplete] at hl ⊢; omega
      have e : receiveByte p (.collecting (n :: got)) b = (.hunting, [rowOfFrame p (n :: got ++ [b])]) := by
        simp only [receiveByte]; rw [if_pos this]
      simp [e, receiveAll]
    · have : frameComplete (n :: got ++ [b]) = false := by
        have := List.length_pos_iff.2 hr
        simp [frameComplete] at hl ⊢; omega
      have e : receiveByte p (.collecting (n :: got)) b = (.collecting (n :: got ++ [b]), []) := by
        simp only [receiveByte]; rw [if_neg (by rw [this]; decide)]
      have := ih (got := got ++ [b]) hr (by simp at hl ⊢; omega)
      simp only [List.cons_append, List.append_assoc, List.nil_append] at this
      simp [e, this]

/-- A frame whose length is taken, from hunting: the receiver hunts again and the frame is one row. -/
theorem receiveAll_frame (p : Port) (frame : List Byte) (h : frameComplete frame = true) (hl :
    lengthTaken (byteAt frame 0) = true) :
    receiveAll p .hunting (0xA5#8 :: frame) = (.hunting, [rowOfFrame p frame]) := by
  cases frame with
  | nil => simp [frameComplete] at h
  | cons n rest =>
    have hl2 : lengthTaken n = true := by simpa [byteAt] using hl
    have hlen : rest.length = n.toNat + 2 := by simpa [frameComplete] using h
    have hr : rest ≠ [] := by intro hr; simp [hr] at hlen
    rw [receiveAll_cons, show receiveByte p .hunting 0xA5#8 = (.collecting [], []) from rfl]
    dsimp only
    rw [receiveAll_cons]
    have e : receiveByte p (.collecting []) n = (.collecting [n], []) := by
      simp only [receiveByte]; rw [if_pos hl2]
    rw [e]
    dsimp only
    rw [receiveAll_collecting p n [] rest hr (by simpa using hlen)]
    rfl

/-- The lowest true entry of a list. -/
theorem findIdx_true_iff (l : List Bool) : (l.findIdx? id = none → ∀ k : Nat, l[k]? ≠ some true) ∧ ∀ k :
    Nat, l.findIdx? id = some k ↔ (l[k]? = some true ∧ ∀ j : Nat, j < k → l[j]? ≠ some true) := by
  constructor
  · intro h k hk
    rw [List.findIdx?_eq_none_iff] at h
    have := h true (List.mem_of_getElem? hk)
    simp at this
  · intro k
    rw [List.findIdx?_eq_some_iff_getElem]
    constructor
    · rintro ⟨h, h1, h2⟩
      refine ⟨by rw [List.getElem?_eq_getElem h]; simpa using h1, fun j hj hh => ?_⟩
      have := h2 j hj
      rw [List.getElem?_eq_getElem (by omega)] at hh
      simp_all
    · rintro ⟨h1, h2⟩
      obtain ⟨h, h1⟩ := List.getElem?_eq_some_iff.1 h1
      refine ⟨h, by simpa using h1, fun j hj => ?_⟩
      have := h2 j hj
      rw [List.getElem?_eq_getElem (by omega)] at this
      simpa using this

/-- A source is eligible where it is latched and unmasked (R163, R164). -/
theorem Events.eligible_iff (e : Events) (p : Port) (k : Nat) : (e.eligible p)[k]? = some true ↔
    (e.latches p)[k]? = some true ∧ (e.masks p)[k]? = some false := by
  unfold Events.eligible
  rw [List.getElem?_zipWith]
  cases (e.latches p)[k]? <;> cases (e.masks p)[k]? <;> simp

/-! ### The order of a port's responses (R174) -/

/-- An answer goes out after what waits, before what is held behind it. -/
theorem PortState.inOrder_send_behind (x : PortState) (r : Response) :
    (x.send r).inOrder = x.sent ++ x.waiting.toList ++ [r] ++ x.behind.toList := by
  simp [PortState.inOrder]

/-- An answer that nothing is held behind is the last response. -/
theorem PortState.inOrder_send {x : PortState} (h : x.behind = none) (r : Response) :
    (x.send r).inOrder = x.inOrder ++ [r] := by
  simp [PortState.inOrder, h]

/-- A discarded frame moves no response. -/
@[simp] theorem PortState.inOrder_release (x : PortState) : x.release.inOrder = x.inOrder := by
  unfold PortState.release PortState.inOrder
  split <;> simp_all

/-- An ending response falls due after every other. -/
@[simp] theorem PortState.inOrder_ending (x : PortState) (r : Response) :
    (x.ending r).inOrder = x.inOrder ++ [r] := by
  have h := x.inOrder_release
  unfold PortState.ending
  split
  · simp [PortState.inOrder]
  · rw [← h]; simp [PortState.inOrder]

/-- What a port has sent stays sent. -/
theorem PortState.sent_release_prefix (x : PortState) : x.sent <+: x.release.sent := by
  unfold PortState.release
  split <;> simp

/-- What a port has sent stays sent. -/
theorem PortState.sent_ending_prefix (x : PortState) (r : Response) : x.sent <+: (x.ending r).sent := by
  unfold PortState.ending
  split
  · simp
  · exact x.sent_release_prefix

/-- An ending falls due (R174), whole. -/
theorem State.dueOnPlanPort_eq (s : State) (r : Response) : s.dueOnPlanPort r = s.endingDue r := by
  unfold State.dueOnPlanPort State.endingDue PortState.ending PortState.release PortState.inOrder
  cases hr : s.portP.receiver <;> cases hb : s.portP.behind <;> simp <;> exact hr.symm

end Sys2Proof.Machine
end

