-- ==== Sys2Proof/Tests/Slice0.lean ====
section
/-! SUPPORT. Tests on fixed values, each taken from a worked example or a table of the data book, and one witness for
each obligation that has hypotheses: a concrete state and operands that meet them together. -/

namespace Sys2Proof.Tests

open Sys2Proof Sys2Proof.Machine

/-! ### Small states -/

/-- Wall 8 of section 11.1: base 500, course height 2500, one course, bed 10/60, joint 5/30/60, drift 150, tolerances
30/50, priority 2. -/
def wall8 (st : WallState) (slots laid : Nat) : Wall :=
  ⟨st, ⟨500, 2500, 1, 10, 60, 5, 30, 60, 150, 30, 50⟩, 2, true, false, slots, laid⟩

/-- Type 4 of section 11.1: length 2970, height 2480, bin 3, minimum cut 600, cuttable. -/
def type4 : BrickType := ⟨true, 2970, 2480, 3, true, 600⟩

/-- A block of wall 8, course 0, reach {2}. -/
def block (st : SlotState) (designLeft : Nat) (left right : Option Nat) : Slot :=
  ⟨st, 8, 0, designLeft, 4, none, [], left, right, 4#8, false, false, false, false, none, none, none, none⟩

/-- A Set block with its measured figures. -/
def setBlock (designLeft : Nat) (l r : Option Nat) (a : AsLaid) : Slot := { block .set designLeft l r with asLaid := some a }

/-- A Claimed block with its tag. -/
def claimedBlock (designLeft : Nat) (l r : Option Nat) (tag : Nat) : Slot :=
  { block .claimed designLeft l r with tag := some tag }

/-- Wall 8 in a state with some slots: station 2, the clock at 36010, a fresh record with every gate Open, the queue by
its law. -/
def site (st : WallState) (slots : SlotTable) (line : List Carrier := []) : State :=
  let plan : Plan := ⟨slots,
    (Vector.replicate 32 Wall.freeWall).set 8
      (wall8 st slots.length (slots.filter fun e => e.2.state.laid).length),
    (Vector.replicate 64 BrickType.undefinedEntry).set 4 type4⟩
  { State.reset with
    plan := plan
    dispatcher := ⟨plan.queueByLaw, some 2, false, 0⟩
    line := line
    clock := some 36010
    conditions := ⟨20, 12, some 36002, false, false, .opened, .opened, .opened⟩ }

/-- Slots 200 and 201 of wall 8, both Ready. -/
def twoReady : State :=
  site .opened [(200, block .ready 0 none (some 201)), (201, block .ready 3000 (some 200) none)]

/-- A carrier of tag 0 for slot 200, at a stage. -/
def carrier (stage : Stage) : Carrier := ⟨0, 200, stage, none, false, 3000, none, none, false⟩

/-- Slot 200 Claimed by the one carrier on the line. -/
def oneClaimed (c : Carrier) (x : Slot := claimedBlock 0 none (some 201) 0) : State :=
  site .opened [(200, x), (201, block .ready 3000 (some 200) none)] [c]

/-- A part with a stored code: port P at Operator level. -/
def operatorPart (epl : Level) : State :=
  { State.reset with authority := { Authority.powerOn (some 7#128) with epl := epl } }

/-- The state a command leaves; the reset state where it stops. -/
def after (c : Instr) (s : State) : State :=
  match exec c s with
  | .next t => t
  | _ => State.reset

/-- The status and body a port sends for a command. -/
def answer (p : Port) (c : Instr) (s : State) : Option (Status × Body) :=
  ((after c s).port p).answer.map fun r => (r.status, r.body)

/-- A slot address by index. -/
def absolute (i : Nat) : SlotAddress := ⟨1#8, BitVec.ofNat 8 i, BitVec.ofNat 8 (i / 256), 0#8⟩

/-! ### Well-formedness: each check refuses an ill-formed term -/

theorem test_wf_event_mask_one_byte : (Instr.eventMask .M 256#16).wellFormed = false := by decide
theorem test_wf_sweep_row : (Instr.sweepWithhold 1#8 ⟨absolute 0, 1#16, 0#8, 0#16, 0#8, 0#8⟩).wellFormed = false := by
  decide
theorem test_wf_slot_load_count : (Instr.slotLoad []).wellFormed = false := by decide
theorem test_wf_tag : (Instr.adhesiveExpiry 8).wellFormed = false := by decide
theorem test_wf_check_fail_matches :
    (Instr.frameCheckFail .P (0x01#8 :: 0x12#8 :: checkBytes [0x01#8, 0x12#8])).wellFormed = false := by decide +kernel
theorem test_wf_unknown_is_command : (Instr.unknownCode .M 0x51#8 []).wellFormed = false := by decide
theorem test_wf_length_taken : (Instr.frameLengthOutOfRange .P 250#8).wellFormed = false := by decide

/-! ### The check and the frames, bytes written out from section 10.5 -/

/-- The check value R171 gives for the nine bytes 31h to 39h. -/
theorem test_crc_check_value :
    crc [0x31#8, 0x32#8, 0x33#8, 0x34#8, 0x35#8, 0x36#8, 0x37#8, 0x38#8, 0x39#8] = 0x29B1#16 := by decide +kernel

/-- Low byte first: an absolute address of 4660 = 1234h. -/
theorem test_frame_slot_read : decodeCommand .M 0x01#8 [1#8, 0x34#8, 0x12#8, 0#8]
    = some (.slotRead .M ⟨1#8, 0x34#8, 0x12#8, 0#8⟩) := by decide
theorem test_frame_watch_set : decodeCommand .P 0x0E#8 [7#8, 1#8, 0xFF#8, 3#8, 4#8, 0#8]
    = some (.watchSet ⟨7#8, 1#8, 0xFF#8, 3#8, 4#8, 0#8⟩) := by decide
/-- Operation 2 is Shift; the delta −20 is FFECh, low byte first. -/
theorem test_frame_sweep : decodeCommand .P 0x10#8 [3#8, 1#8, 0#8, 0#8, 4#8, 0#8, 0#8, 2#8, 0xEC#8, 0xFF#8, 0#8, 0#8]
    = some (.sweepShift ⟨⟨3#8, 1#8, 0#8, 0#8⟩, 4#16, 0#8, 0xFFEC#16, 0#8, 0#8⟩) := by decide
theorem test_frame_wall_define : decodeCommand .P 0x20#8
      [8#8, 0xF4#8, 1#8, 0#8, 0#8, 0xC4#8, 9#8, 1#8, 10#8, 60#8, 5#8, 30#8, 60#8, 150#8, 0#8, 30#8, 0#8, 50#8, 0#8, 2#8]
    = some (.wallDefine 8#8 ⟨500#32, 2500#16, 1#8, 10#8, 60#8, 5#8, 30#8, 60#8, 150#16, 30#16, 50#16⟩ 2#8) := by decide
theorem test_frame_type_define : decodeCommand .P 0x28#8 [4#8, 1#8, 0x9A#8, 0x0B#8, 0xB0#8, 9#8, 3#8, 1#8, 0x58#8, 2#8]
    = some (.typeDefine 4#8 ⟨1#8, 2970#16, 2480#16, 3#8, 1#8, 600#16⟩) := by decide
theorem test_frame_slot_load : decodeCommand .P 0x30#8
      [200#8, 0#8, 8#8, 0#8, 0xB8#8, 0x0B#8, 0#8, 0#8, 4#8, 0#8, 0#8, 0#8, 0#8, 0#8, 0#8, 0#8, 0#8, 0#8, 0xFF#8, 0xFF#8,
       201#8, 0#8, 4#8]
    = some (.slotLoad [⟨200#16, 8#8, 0#8, 3000#32, 4#8, 0#16, 0#8, 0#16, 0#16, 0#16, 0xFFFF#16, 201#16, 4#8⟩]) := by
  decide
theorem test_frame_set_option : decodeCommand .P 0x3A#8 [3#8, 0xFB#8, 0xFF#8, 0xFF#8, 0xFF#8]
    = some (.setOption 3#8 0xFFFFFFFB#32) := by decide
theorem test_frame_set_code : decodeCommand .P 0x42#8 (1#8 :: 1#8 :: List.replicate 15 0#8)
    = some (.setCode 1#8 1#128) := by decide
theorem test_frame_laid : decodeCommand .M 0x55#8
      [0#8, 0#8, 0#8, 0#8, 0#8, 0x9A#8, 0x0B#8, 0#8, 0#8, 0xBA#8, 0x0B#8, 0#8, 0#8, 0xB6#8, 0x0B#8, 0#8, 0#8]
    = some (.laid 0#8 ⟨0#32, 2970#32, 3002#32, 2998#32⟩) := by decide
/-- Codes above 4Fh are no commands of port P. -/
theorem test_frame_claim_on_port_p : bodySizes .P 0x51#8 = none := by decide
/-- Received byte by byte: the frame of Hold. -/
theorem test_receive_hold :
    receiveAll .P .hunting ([0x00#8, 0xA5#8, 0x01#8, 0x12#8] ++ checkBytes [0x01#8, 0x12#8]) = (.hunting, [.hold]) := by
  decide +kernel

/-! ### Laws at reset -/

theorem test_reset_keeps_laws : State.reset.queueLaw ∧ State.reset.lineLaw ∧ State.reset.weatherLaw := by decide
theorem test_table_has_no_bits : decodeTableWord 8 0 = none := rfl
theorem test_step_idles : step State.reset = .next State.reset := rfl

/-! ### Section 11.1: loading and opening a wall -/

def wallFields8 : WallFields := ⟨500#32, 2500#16, 1#8, 10#8, 60#8, 5#8, 30#8, 60#8, 150#16, 30#16, 50#16⟩
def typeFields4 : TypeFields := ⟨1#8, 2970#16, 2480#16, 3#8, 1#8, 600#16⟩

/-- A load record of slot 200 + n of wall 8, without links. -/
def record (i : Nat) (designLeft : Nat) : LoadRecord :=
  ⟨BitVec.ofNat 16 i, 8#8, 0#8, BitVec.ofNat 32 designLeft, 4#8, 0#16, 0#8, 0#16, 0#16, 0#16, 0xFFFF#16, 0xFFFF#16, 4#8⟩

def draft (slots : SlotTable) : State := { site .draft slots with dispatcher := ⟨[], none, false, 0⟩ }

theorem test_type_define :
    (after (.typeDefine 4#8 typeFields4) State.reset).plan.brickType 4 = type4 := by decide
theorem test_wall_define :
    (after (.wallDefine 8#8 wallFields8 2#8) State.reset).plan.wall 8 = { wall8 .draft 0 0 with audited := false } := by
  decide
/-- A second record for a slot of the frame finds it non-Empty: OK, then Full. -/
theorem test_slot_load_second_is_full :
    answer .P (.slotLoad [record 203 9000, record 203 9000]) (draft []) = some (.ok, .load 1 [.ok, .full]) := by decide
theorem test_slot_load_all_full :
    answer .P (.slotLoad [record 203 9000]) (draft [(203, block .planned 9000 none none)])
      = some (.full, .load 0 [.full]) := by decide
theorem test_wall_open_not_audited :
    answer .P (.wallOpen 8#8) (after (.slotLoad [record 203 9000]) (draft [])) = some (.notAudited, .empty) := by decide
theorem test_wall_open :
    ((after (.wallOpen 8#8) (draft [(200, block .planned 0 none none)])).plan.wall 8).state = .opened := by decide
theorem test_audit_passes :
    (after .auditStep (after .auditStep (after (.audit 8#8) (draft [(200, block .planned 0 none none)])))).portP.sent
      = [⟨0x0F#8, .ok, .auditPass 1⟩] := by decide
/-- Positions 2000 to 2969 lie in both spans: check 8. -/
theorem test_audit_course_overlap :
    (after .auditStep (after (.audit 8#8)
      (draft [(200, block .planned 0 none none), (201, block .planned 2000 none none)]))).portP.sent
      = [⟨0x0F#8, .auditFail, .auditFail .courseOverlap 200 1⟩] := by decide
theorem test_station_makes_ready :
    ((after (.station 2#8) { site .opened [(200, block .planned 0 none none)] with
      dispatcher := ⟨[], none, false, 0⟩ }).dispatcher.queue) = [200] := by decide
theorem test_station_bad_value : answer .M (.station 8#8) State.reset = some (.badValue, .empty) := by decide
theorem test_claim_clock_unset : answer .M .claim State.reset = some (.noBrick, .noBrick .clockUnset) := by decide
theorem test_set_time : answer .P (.setTime 36000#32) State.reset = some (.ok, .clockSet 36000) := by decide
theorem test_set_time_line_not_empty :
    answer .P (.setTime 36000#32) (oneClaimed (carrier .picked)) = some (.lineNotEmpty, .empty) := by decide
/-- 20 °C, 12 km/h, at 36002: a fresh record with every gate Open. -/
theorem test_conditions_open_gates :
    (after (.conditions 20#8 12#8) { State.reset with clock := some 36002 }).conditions
      = ⟨20, 12, some 36002, false, false, .opened, .opened, .opened⟩ := by decide

/-! ### Section 11.2: a course in a pipeline -/

theorem test_claim_takes_tag_0 :
    answer .M .claim twoReady = some (.ok, .claim ⟨0, 200, 8, 0, 4, 3, none, false⟩) := by decide
theorem test_claim_top : (after .claim twoReady).line.map Carrier.top = [3000] := by decide
/-- Glued at 36015 at 20 °C: deadline 36915. -/
theorem test_glued_deadline :
    answer .M (.glued 0#8) { oneClaimed (carrier .picked) with clock := some 36015 }
      = some (.ok, .glued 0 .glued 900 36915) := by decide
/-- 31 °C gives an open time of 514 (section 11.4). -/
theorem test_glued_at_31_degrees :
    answer .M (.glued 0#8) { oneClaimed (carrier .picked) with
        clock := some 1100, conditions := ⟨31, 0, some 1100, false, false, .opened, .opened, .opened⟩ }
      = some (.ok, .glued 0 .glued 514 1614) := by decide
theorem test_cut_done :
    answer .M (.cutDone 0#8) (oneClaimed { carrier .picked with cutLength := some 2935 }) = some (.ok, .cutDone 0 .cut) := by
  decide
theorem test_cut_done_without_cut :
    answer .M (.cutDone 0#8) (oneClaimed (carrier .picked)) = some (.outOfStep, .empty) := by decide
theorem test_target_request :
    answer .M (.targetRequest 0#8) (oneClaimed (carrier .glued))
      = some (.ok, .target 0 .targeted ⟨3000, 0, 2970⟩ false) := by decide
theorem test_target_request_discard :
    answer .M (.targetRequest 0#8) (oneClaimed (carrier .expired)) = some (.discard, .empty) := by decide

def targetedBlock : Slot := { claimedBlock 0 none (some 201) 0 with target := some ⟨3000, 0, 2970⟩ }

/-- Deviations +2, −2, 0 and 0: Set. -/
theorem test_laid_set :
    answer .M (.laid 0#8 ⟨0#32, 2970#32, 3002#32, 2998#32⟩)
        (oneClaimed { carrier .targeted with targeted := true } targetedBlock)
      = some (.ok, .laid 0 .set ⟨2, -2, 0, 0⟩) := by decide
/-- Expired after its target: Late, and Suspect with the late flag (section 11.4). -/
theorem test_laid_late :
    ((after (.laid 0#8 ⟨0#32, 2970#32, 3002#32, 2998#32⟩)
        (oneClaimed { carrier .expired with targeted := true } targetedBlock)).plan.slot? 200).map
          (fun x => (x.state, x.late)) = some (.suspect, true) := by decide
/-- Measured right end 2970: the band of slot 201 is 2975 to 3030, and L = 3000. -/
theorem test_left_end_in_band :
    (site .opened [(200, setBlock 0 none (some 201) ⟨0, 2970, 3002, 2998, 36050⟩),
      (201, block .ready 3000 (some 200) none)]).plan.leftEnd (block .ready 3000 (some 200) none) = .ok 3000 := by decide
/-- raw = 14968 − 30 − 12000 = 2938, rounded down to 2935 (section 11.3). -/
theorem test_closer_length :
    (site .opened []).plan.closerLength (block .ready 12000 (some 52) (some 54)) 12000 14968 = .ok 2935 := by decide
/-- A rejected slot whose right neighbour is Ready returns to Planned and is judged Ready again. -/
theorem test_reject :
    answer .M (.reject 0#8 7#8) (oneClaimed (carrier .glued)) = some (.ok, .rejected 0 7 .ready) := by decide
theorem test_reject_faulted :
    ((after (.reject 0#8 7#8) (oneClaimed (carrier .faulted))).plan.slot? 200).map (fun x => (x.state, x.faultReason))
      = some (.fault, some .drift) := by decide
theorem test_expiry :
    (after (.adhesiveExpiry 0) (oneClaimed { carrier .glued with deadline := some 36010 })).line.map Carrier.stage
      = [.expired] := by decide
theorem test_expiry_not_due :
    (after (.adhesiveExpiry 0) (oneClaimed { carrier .glued with deadline := some 36011 })).line.map Carrier.stage
      = [.glued] := by decide
theorem test_bin_status_blocks :
    answer .M .claim (after (.binStatus 8#16) twoReady) = some (.noBrick, .noBrick .allBlocked) := by decide

/-! ### Section 11.5: gates -/

theorem test_wind_42 :
    (after (.conditions 14#8 42#8) twoReady).conditions
      = ⟨14, 42, some 36010, false, false, .opened, .closed, .opened⟩ := by decide
theorem test_stale_at_30_seconds :
    (after .staleness { twoReady with clock := some 36032 }).events.stale = true
      ∧ (after .staleness { twoReady with clock := some 36031 }).events.stale = false := by decide
theorem test_set_option_clamps :
    answer .P (.setOption 7#8 500#32) State.reset = some (.ok, .option 7 250) := by decide
theorem test_set_option_breaks_pair :
    answer .P (.setOption 6#8 300#32) State.reset = some (.badValue, .empty) := by decide
theorem test_clock_holds :
    (after .clockTick { State.reset with clock := some 4294967295 }).clock = some 4294967295 := by decide
/-- At the advance to the largest value a fresh record turns stale; a report then leaves the gates Closed (R113, R114). -/
theorem test_clock_reaches_largest :
    let s := after .clockTick { twoReady with clock := some 4294967294 }
    s.clock = some 4294967295 ∧ s.conditions.stale = true ∧ s.conditions.stop = .closed ∧ s.events.stale = true
      ∧ s.events.gateChange = true ∧ answer .M .claim s = some (.noBrick, .noBrick .windStop)
      ∧ (after (.conditions 14#8 0#8) s).conditions
        = ⟨14, 0, some 4294967295, true, false, .closed, .closed, .closed⟩ := by decide
theorem test_clock_tick : (after .clockTick { State.reset with clock := some 36000 }).clock = some 36001 := by decide

/-! ### Section 11.6: a held sweep -/

theorem test_hold :
    answer .P .hold (oneClaimed (carrier .targeted)) = some (.ok, .hold 1 false) := by decide
theorem test_release : answer .P .release (after .hold twoReady) = some (.ok, .hold 0 false) := by decide
theorem test_slot_read_moves_cursor : (after (.slotRead .P (absolute 600)) State.reset).portP.cursor = 600 := by decide

def shift20 : SweepFields := ⟨absolute 201, 1#16, 0#8, 20#16, 0#8, 0#8⟩

theorem test_sweep_shift_not_held :
    (after .sweepStep (after (.sweepShift shift20) twoReady)).portP.sent
      = [⟨0x10#8, .notHeld, .sweepEnd .notHeld none 1⟩] := by decide
theorem test_sweep_shift_held :
    ((after .sweepStep (after (.sweepShift shift20) (after .hold twoReady))).plan.slot? 201).map Slot.designLeft
      = some 3020 := by decide
theorem test_sweep_ends_done :
    (after .sweepStep (after .sweepStep (after (.sweepShift shift20) (after .hold twoReady)))).portP.answer
      = some ⟨0x10#8, .ok, .sweepEnd .done (some 201) 0⟩ := by decide
theorem test_sweep_withhold :
    (after .sweepStep (after (.sweepWithhold 0#8 { shift20 with start := absolute 200 }) twoReady)).dispatcher.queue
      = [201] := by decide
theorem test_sweep_free_edge :
    (after .sweepStep (after .sweepStep (after (.sweepFree { shift20 with start := absolute 4095, count := 2#16 })
      twoReady))).portP.sent = [⟨0x10#8, .edge, .sweepEnd .edge (some 4095) 1⟩] := by decide
theorem test_sweep_retype_undefined :
    answer .P (.sweepRetype { shift20 with deltaOrType := 5#16 }) twoReady = some (.badValue, .empty) := by decide
theorem test_abort_not_busy : answer .P .abort State.reset = some (.notBusy, .empty) := by decide
theorem test_busy : answer .P (.status .P) (after (.audit 8#8) twoReady) = some (.busy, .empty) := by decide
/-- Abort is answered in its own event; the ending response follows it, at the step (R147, R174). -/
theorem test_abort_ends_sweep :
    (after .sweepStep (after .abort (after (.sweepFree shift20) twoReady))).portP.sent
      = [⟨0x11#8, .ok, .empty⟩, ⟨0x10#8, .aborted, .sweepEnd .aborted none 1⟩] := by decide

/-- A sweep that ends while port P receives the frame of Abort. -/
def heldBehind : State :=
  after .sweepStep { after .sweepStep (after (.sweepFree shift20) twoReady) with
    portP := { PortState.reset with receiver := .collecting [1#8] } }

/-- The sweep is over, so the frame is answered Not Busy, and the ending response follows that answer (R147, R174). -/
theorem test_ending_response_held :
    heldBehind.portP.sent = []
      ∧ (after .endingResponseSend (after .abort { heldBehind with
          portP := { heldBehind.portP with receiver := .hunting } })).portP.sent.map Response.status = [.notBusy, .ok] := by
  decide
/-- The frame comes to nothing: its check fails, and the ending response goes out. -/
theorem test_ending_response_after_discard :
    (after .endingResponseSend (after (.frameGapTimeout .P) heldBehind)).portP.sent
      = [⟨0x10#8, .ok, .sweepEnd .done (some 201) 0⟩] := by decide

/-- A Planned slot that now meets the conditions for Ready (its left neighbour was laid by a link of one side). -/
def unjudged : State :=
  site .opened [(200, setBlock 0 none none ⟨0, 2970, 3000, 3000, 5⟩), (201, block .planned 3000 (some 200) none)]

/-- A Shift step changes its field, and it keeps its state (R140). -/
theorem test_sweep_shift_keeps_planned :
    ((after .sweepStep (after (.sweepShift { shift20 with deltaOrType := 5#16 }) (after .hold unjudged))).plan.slot?
      201).map (fun x => (x.state, x.designLeft)) = some (.planned, 3005) := by decide

/-! ### Section 11.7: line reset -/

def faultedLine : State :=
  { oneClaimed (carrier .faulted) with
    dispatcher := ⟨[201], some 2, true, 8#16⟩
    events := { Events.reset with expiry := true } }

theorem test_line_reset_slots :
    (after .lineReset faultedLine).plan.slots.map (fun e => (e.1, e.2.state)) = [(200, .fault), (201, .planned)] := by
  decide
theorem test_line_reset_lines :
    (after .lineReset faultedLine).stopx = false ∧ (after .lineReset faultedLine).held = true
      ∧ (after .lineReset faultedLine).events.planFault = true ∧ (after .lineReset faultedLine).events.expiry = false := by
  decide
theorem test_power_on_keeps_code :
    (after .powerOnReset (operatorPart .engineer)).authority = ⟨some 7#128, .operator, 5, false, .operator⟩ := by decide
theorem test_estop : answer .M .claim (after (.estopChange true) twoReady) = some (.noBrick, .noBrick .eStop) := by decide

/-! ### The other commands -/

theorem test_withhold : (after (.withhold (absolute 200)) twoReady).dispatcher.queue = [201] := by decide
theorem test_free :
    answer .P (.free (absolute 200)) (after (.withhold (absolute 200)) twoReady) = some (.ok, .withheld .ready false) := by
  decide
/-- Free of a slot that is free changes nothing (R134): a Planned slot stays Planned. -/
theorem test_free_of_a_free_slot :
    answer .P (.free (absolute 201)) unjudged = some (.ok, .withheld .planned false) := by decide
theorem test_slot_delete : (after (.slotDelete (absolute 200)) (draft [(200, block .planned 0 none none)])).plan.slots
    = [] := by decide
theorem test_clear :
    answer .P (.clear (absolute 200))
        (site .opened [(200, { block .fault 0 none none with faultReason := some .drift })])
      = some (.ok, .slotState .ready) := by decide
theorem test_slot_amend_not_held :
    answer .P (.slotAmend (absolute 200) 1#8 (record 0 30).plan.drawn) twoReady = some (.notHeld, .empty) := by decide
theorem test_slot_amend_held :
    ((after (.slotAmend (absolute 200) 1#8 (record 0 30).plan.drawn) (after .hold twoReady)).plan.slot? 200).map
      Slot.designLeft = some 30 := by decide

def suspectBlock : Slot :=
  { block .suspect 0 none none with target := some ⟨3000, 0, 2970⟩, asLaid := some ⟨0, 2970, 3040, 2998, 36050⟩ }

/-- The last slot of its wall that is not Set is accepted: the wall is complete. -/
theorem test_accept : answer .P (.accept (absolute 200)) (site .opened [(200, suspectBlock)])
    = some (.ok, .accepted .set true) := by decide
theorem test_lift : answer .P (.lift (absolute 200)) (site .opened [(200, suspectBlock)])
    = some (.ok, .slotState .ready) := by decide
theorem test_lift_has_followers :
    answer .P (.lift (absolute 200)) (site .opened [(200, suspectBlock),
        (201, { setBlock 3000 none none ⟨0, 0, 0, 0, 0⟩ with supports := [200] })]) = some (.hasFollowers, .empty) := by
  decide
theorem test_slot_restore :
    ((after (.slotRestore (absolute 7) (record 7 0).plan ⟨0#32, 2970#32, 3002#32, 2998#32, 5#32⟩) (draft [])).plan.slot?
      7).map (fun x => (x.state, x.asLaid)) = some (.set, some ⟨0, 2970, 3002, 2998, 5⟩) := by decide
theorem test_close :
    answer .P (.close 8#8) (site .opened [(200, setBlock 0 none none ⟨0, 2970, 3000, 3000, 5⟩)])
      = some (.ok, .count 1) := by decide
theorem test_wall_free : (after (.wallFree 8#8) (draft [(200, block .planned 0 none none)])).plan.wall 8 = Wall.freeWall := by
  decide
theorem test_pause : (after (.pause 8#8) twoReady).dispatcher.queue = [] := by decide
theorem test_resume : (after (.resume 8#8) (after (.pause 8#8) twoReady)).dispatcher.queue = [200, 201] := by decide
theorem test_priority_caps : ((after (.priority 8#8 9#8) twoReady).plan.wall 8).priority = 7 := by decide
theorem test_wall_set_not_held : answer .P (.wallSet 8#8 wallFields8) twoReady = some (.notHeld, .empty) := by decide
theorem test_wall_set_clears_audited :
    ((after (.wallSet 8#8 { wallFields8 with base := 501#32 }) (draft [])).plan.wall 8).audited = false := by decide
theorem test_wall_read : answer .M (.wallRead .M 32#8) State.reset = some (.badAddress, .empty) := by decide
theorem test_type_read : answer .P (.typeRead .P 4#8) twoReady = some (.ok, .brickType type4) := by decide
theorem test_queue_read :
    answer .M (.queueRead .M 1#8) twoReady = some (.ok, .queue 2 2 [⟨200, 8, 0, 0, 4⟩]) := by decide
theorem test_queue_read_above_64 : answer .M (.queueRead .M 65#8) twoReady = some (.badValue, .empty) := by decide
theorem test_line_read :
    answer .M (.lineRead .M) (oneClaimed (carrier .glued)) = some (.ok, .line [carrier .glued]) := by decide
theorem test_read_time : answer .P (.readTime .P) twoReady = some (.ok, .time (some 36010)) := by decide
theorem test_conditions_read :
    answer .P (.conditionsRead .P) State.reset = some (.ok, .conditions ⟨20, 0, none, true, false, .closed, .closed, .closed⟩) := by
  decide
theorem test_option_read : answer .M (.optionRead .M) State.reset
    = some (.ok, .options ⟨900, 40, 2, 40, 40, 30, 60, 50, 20000, 0⟩) := by decide
/-- The body of a Status right after reset, bytes 2 to 18 (R175). -/
theorem test_status :
    ((answer .P (.status .P) State.reset).map fun r => r.2.bytes)
      = some [1#8, 0#8, 0#8, 0#8, 0#8, 0#8, 0xFF#8, 0#8, 0#8, 0#8, 1#8, 0#8, 0#8, 0#8, 0#8, 0#8, 0#8] := by decide
theorem test_event_fetch :
    (after (.eventFetch .M) { State.reset with events := { Events.reset with expiry := true, stale := true, maskM := 0 }
      }).events.latches .M = [false, false, true] := by decide
theorem test_event_mask : (after (.eventMask .M 5#16) State.reset).events.masks .M = [true, false, true] := by decide
theorem test_authority_read :
    answer .P .authorityRead (operatorPart .operator) = some (.ok, .authority .operator 5 false .operator true) := by decide
theorem test_watch_set :
    (after (.watchSet ⟨0#8, 1#8, 0xFF#8, 0xFF#8, 3#8, 0#8⟩) twoReady).events.watches[0]?
      = some ⟨true, none, none, .claimed, .once, false, 0, none, none⟩ := by decide
/-- A Once watch on entry into Claimed matches the Claim and disables itself. -/
theorem test_watch_match :
    (after .claim (after (.watchSet ⟨0#8, 1#8, 0xFF#8, 0xFF#8, 3#8, 0#8⟩) twoReady)).events.watches[0]?
      = some ⟨false, none, none, .claimed, .once, true, 1, some 200, some 36010⟩ := by decide
theorem test_watch_read_auto_clear :
    ((after .watchRead { after .claim (after (.watchSet ⟨0#8, 1#8, 0xFF#8, 0xFF#8, 3#8, 0#8⟩) twoReady) with
      options := { Options.defaults with autoClear := 1 } }).events.watches[0]?).map Watch.latched = some false := by decide
theorem test_unlock : answer .P (.unlock 7#128) (operatorPart .operator) = some (.ok, .unlock .engineer 5) := by decide
theorem test_unlock_mismatch :
    answer .P (.unlock 8#128) (operatorPart .operator) = some (.authority, .unlock .operator 4) := by decide
theorem test_lock : answer .P .lock (after (.unlock 7#128) (operatorPart .operator)) = some (.ok, .level .operator) := by
  decide
theorem test_set_code : (after (.setCode 1#8 9#128) State.reset).authority.code = some 9#128 := by decide
theorem test_freeze : answer .P (.setCode 1#8 9#128) (after .freeze (operatorPart .operator)) = some (.frozen, .empty) := by
  decide
theorem test_set_epl : (after (.setEpl 1#8) State.reset).authority.epl = .engineer := by decide
theorem test_frame_gap : (after (.frameGapTimeout .M) { State.reset with
    portM := { PortState.reset with receiver := .collecting [2#8] } }).portM.receiver = .hunting := by decide
theorem test_check_fail_answers_nothing :
    (after (.frameCheckFail .M [1#8, 0x51#8, 0#8, 0#8]) State.reset).portM.answer = none := by decide +kernel
theorem test_length_out_of_range : (after (.frameLengthOutOfRange .M 251#8) State.reset).portM.receiver = .hunting := by
  decide
theorem test_unknown_code : answer .P (.unknownCode .P 0x51#8 []) State.reset = some (.unknown, .empty) := by decide
theorem test_malformed : answer .M (.unknownCode .M 0x51#8 [0#8]) State.reset = some (.malformed, .empty) := by decide
/-- A step takes the command in front. -/
theorem test_step_takes_front :
    (match step (twoReady.withFetchWord 8 0) with
      | .next t => t.pending
      | _ => [.claim]) = [] := by decide

/-! ### Witnesses: for each obligation that has hypotheses, a state and operands that meet them -/

/-- One byte waits to be received, and nothing else. -/
theorem witness_StepTakesTheFrontCommand :
    let s : State := { State.reset with inputs := [(.M, .byte 0xA5#8)] }
    s.pending = [] ∧ s.inputs = [(.M, .byte 0xA5#8)] ∧ State.reset.pending = [] ∧ State.reset.inputs = [] := by decide

theorem witness_FramesComeBackAsTheirCommands :
    (Instr.eventMask .M 255#16).wellFormed = true ∧ encodeCommand (.eventMask .M 255#16) = some (.M, 0x0B#8, [255#8])
      ∧ 0xA5#8 ∉ [0xA4#8, 0xA6#8]
      ∧ (Instr.slotLoad (List.replicate 8 (record 200 0))).wellFormed = true
      ∧ (Instr.unknownCode .P 0x50#8 (List.replicate 249 0xA5#8)).wellFormed = true := by decide +kernel

/-- A context of a sweep at an index. -/
def context (i : Int) (n : Nat) (op : SweepOp) (w : SweepCondition) : SweepContext := ⟨i, n, .up, op, w, none, false⟩

/-- A part whose sweep runs. -/
def sweeping (c : SweepContext) (s : State := twoReady) : State := { s with engine := .sweep c }

/-- The sweep of `heldBehind` after its frame was discarded: its response waits at a hunting receiver. -/
theorem witness_FramesThatAreNotTaken :
    (frameComplete [1#8, 0x12#8, 0#8, 0#8] = true ∧ lengthTaken 1#8 = true
        ∧ checkMatches [1#8, 0x12#8, 0#8, 0#8] = false ∧ lengthTaken 250#8 = true)
      ∧ ((0#8 : Byte).toNat = 0 ∧ 250 < (251#8 : Byte).toNat)
      ∧ ((heldBehind.port .P).receiver ≠ .hunting ∧ (twoReady.port .P).receiver = .hunting)
      ∧ ((List.replicate 249 0#8).length < 250 ∧ bodySizes .M 0x59#8 = none ∧ bodySizes .M 0x58#8 = some [2]
        ∧ [0#8].length ∉ [2])
      ∧ ((after (.frameGapTimeout .P) heldBehind).portP.waiting = some ⟨0x10#8, .ok, .sweepEnd .done (some 201) 0⟩
        ∧ (after (.frameGapTimeout .P) heldBehind).portP.receiver = .hunting ∧ twoReady.portP.waiting = none)
      ∧ exec .abort heldBehind = .next (after .abort heldBehind)
      ∧ exec .sweepStep (sweeping (context 201 0 .free .always))
        = .next (after .sweepStep (sweeping (context 201 0 .free .always)))
      ∧ exec .claim twoReady = .next (after .claim twoReady) :=
  ⟨by decide +kernel, by decide, by decide, by decide +kernel, by decide, rfl, rfl, rfl⟩

/-- A part whose audit runs. -/
def auditing : State := after (.audit 8#8) twoReady

theorem witness_PlanPortAdmission :
    (planPortRow (.setTime 0#32) = some (0x39#8, .planShaping) ∧ (Instr.setTime 0#32).wellFormed = true
        ∧ auditing.engine ≠ .idle)
      ∧ ((operatorPart .operator).engine = .idle ∧ ¬ (operatorPart .operator).takes .P .planShaping)
      ∧ planPortRow .hold = some (0x12#8, .operational) ∧ Instr.hold.wellFormed = true
      ∧ ¬ (operatorPart .engineer).takes .P .operational := by
  refine ⟨by decide, ⟨rfl, fun h => ?_⟩, by decide, by decide, fun h => ?_⟩
  · exact absurd h.2 (by decide)
  · exact absurd h.2 (by decide)

/-- Slot 4095 and the corners of the three modes; a cursor that offset +127 takes to the table's end. -/
theorem witness_AddressResolution :
    let s : State := { twoReady with portM := { PortState.reset with cursor := 3968 } }
    tableWf s.plan.slots ∧ s.resolve .M ⟨1#8, 0xFF#8, 0x0F#8, 9#8⟩ = some 4095
      ∧ s.resolve .M ⟨2#8, 8#8, 0#8, 1#8⟩ = some 201 ∧ s.resolve .M ⟨3#8, 127#8, 0#8, 0#8⟩ = some 4095
      ∧ s.resolve .M ⟨1#8, 0#8, 0x10#8, 0#8⟩ = none ∧ s.resolve .M ⟨2#8, 8#8, 0#8, 2#8⟩ = none
      ∧ s.resolve .P ⟨3#8, 0xFF#8, 0#8, 0#8⟩ = none ∧ s.resolve .M ⟨4#8, 0#8, 0#8, 0#8⟩ = none := by decide

theorem witness_AddressedCommandsMoveTheCursor :
    addressedRow (.lift (absolute 4095)) = some (.P, 0x38#8, .planShaping, absolute 4095)
      ∧ twoReady.takes .P .planShaping ∧ twoReady.resolve .P (absolute 4095) = some 4095
      ∧ twoReady.resolve .P (absolute 4096) = none
      ∧ exec (.lift (absolute 200)) twoReady = .next (after (.lift (absolute 200)) twoReady)
      ∧ addressedRow .claim = none ∧ exec .claim twoReady = .next (after .claim twoReady) :=
  ⟨rfl, ⟨rfl, rfl⟩, by decide, by decide, rfl, rfl, rfl⟩

theorem witness_ReadsOfThePlan :
    twoReady.takes .P .read ∧ twoReady.takes .M .read ∧ twoReady.resolve .P (absolute 0) = some 0
      ∧ (31#8 : Byte).toNat ≤ 31 ∧ 31 < (32#8 : Byte).toNat ∧ (63#8 : Byte).toNat ≤ 63 ∧ 63 < (64#8 : Byte).toNat :=
  ⟨rfl, trivial, by decide, by decide⟩

theorem witness_PlainReads : twoReady.takes .P .read ∧ twoReady.takes .M .read := ⟨rfl, trivial⟩

theorem witness_QueueReadAnswers :
    twoReady.takes .M .read ∧ 64 < (65#8 : Byte).toNat ∧ tableWf twoReady.plan.slots ∧ twoReady.queueLaw :=
  ⟨trivial, by decide, by decide, by decide⟩

theorem witness_StatusReportsTheState : auditing.takes .M .read ∧ twoReady.takes .P .read := ⟨trivial, rfl⟩

/-- The first source and the last are the lowest eligible ones of these two states. -/
theorem witness_EventFetchTakesTheLowestSource :
    let s : State := { State.reset with events := { Events.reset with expiry := true, stale := true, maskM := 0 } }
    let t : State := { State.reset with events := { Events.reset with stale := true, maskM := 3 } }
    (s.takes .M .read ∧ (s.events.latches .M)[0]? = some true ∧ (s.events.masks .M)[0]? = some false)
      ∧ ((t.events.latches .M)[2]? = some true ∧ (t.events.masks .M)[2]? = some false
        ∧ ∀ j < 2, ¬ ((t.events.latches .M)[j]? = some true ∧ (t.events.masks .M)[j]? = some false))
      ∧ ∀ k < 3, ¬ ((State.reset.events.latches .M)[k]? = some true ∧ (State.reset.events.masks .M)[k]? = some false) :=
  ⟨⟨trivial, by decide, by decide⟩, by decide, by decide⟩

theorem witness_EventMaskAndAttention : twoReady.takes .P .operational := ⟨rfl, .inl rfl⟩

theorem witness_WatchSetWritesTheRecord :
    twoReady.takes .P .operational ∧ (1#8 : Byte).toNat ≤ 1 ∧ 7 < (8#8 : Byte).toNat
      ∧ ((7#8 : Byte).toNat ≤ 7 ∧ 31 < (32#8 : Byte).toNat ∧ (32#8 : Byte) ≠ 0xFF#8)
      ∧ (63 < (64#8 : Byte).toNat ∧ (64#8 : Byte) ≠ 0xFF#8 ∧ (1#8 : Byte).toNat < 2 ∧ 7 < (8#8 : Byte).toNat
        ∧ 1 < (2#8 : Byte).toNat)
      ∧ ((31#8 : Byte).toNat ≤ 31 ∧ (63#8 : Byte).toNat ≤ 63 ∧ SlotState.ready.code = (2#8 : Byte).toNat
        ∧ SlotState.retired.code = (7#8 : Byte).toNat) := ⟨⟨rfl, .inl rfl⟩, by decide⟩

theorem witness_WatchReadShowsAndClears :
    let s : State := { State.reset with options := { Options.defaults with autoClear := 1 } }
    s.takes .P .read ∧ s.options.autoClear = 1 ∧ State.reset.takes .P .read ∧ State.reset.options.autoClear ≠ 1 :=
  ⟨rfl, rfl, rfl, by decide⟩

/-- A watch armed for entry into Claimed, and a Claim. -/
def watching : State := after (.watchSet ⟨0#8, 1#8, 0xFF#8, 0xFF#8, 3#8, 0#8⟩) twoReady

theorem witness_WatchMatching :
    (watching.events.lawful ∧ watching.plan.slot? 200 = some (block .ready 0 none (some 201))
        ∧ watching.events.watches[0]? = some ⟨true, none, none, .claimed, .once, false, 0, none, none⟩)
      ∧ exec .claim watching = .next (after .claim watching)
      ∧ (after .claim watching).events.watches[0]?
        = some ⟨false, none, none, .claimed, .once, true, 1, some 200, some 36010⟩ := by
  refine ⟨⟨by decide, by decide, by decide⟩, rfl, by decide⟩

theorem witness_FieldBytesOutOfTheirRanges :
    twoReady.takes .P .operational ∧ twoReady.takes .P .planShaping ∧ twoReady.takes .P .authority
      ∧ 1 < (2#8 : Byte).toNat ∧ (7#8 : Byte).toNat ≤ 7 ∧ (63#8 : Byte).toNat ≤ 63
      ∧ twoReady.authority.frozen = false ∧ twoReady.authority.level = .engineer
      ∧ State.reset.plan.typeInUse 63 = false
      ∧ (draft [(200, block .planned 0 none none)]).resolve .P (absolute 200) = some 200
      ∧ (draft [(200, block .planned 0 none none)]).plan.slot? 200 = some (block .planned 0 none none)
      ∧ ((draft [(200, block .planned 0 none none)]).plan.wall 8).state = .draft ∧ (128#8 : Byte).getLsbD 7 = true :=
  ⟨⟨rfl, .inl rfl⟩, ⟨rfl, rfl⟩, rfl, by decide⟩

theorem witness_UnlockAndSetCode :
    let o := operatorPart .operator
    let frozen : State := { o with authority := { o.authority with frozen := true } }
    let spent : State := { o with authority := { o.authority with attempts := 0 } }
    (frozen.takes .P .authority ∧ frozen.authority.frozen = true)
      ∧ (twoReady.takes .P .authority ∧ twoReady.authority.frozen = false ∧ twoReady.authority.level = .engineer)
      ∧ (spent.takes .P .authority ∧ spent.authority.frozen = false ∧ spent.authority.level = .operator
        ∧ spent.authority.attempts = 0)
      ∧ (o.takes .P .authority ∧ 0 < o.authority.attempts ∧ o.authority.code = some 7#128
        ∧ o.authority.code ≠ some 8#128 ∧ (1#8 : Byte).toNat ≤ 1) :=
  ⟨⟨rfl, rfl⟩, ⟨rfl, rfl, rfl⟩, ⟨rfl, rfl, rfl, rfl⟩, rfl, by decide⟩

theorem witness_LockFreezeAndSetEpl :
    (operatorPart .operator).takes .P .authority ∧ (operatorPart .operator).authority.code ≠ none
      ∧ twoReady.authority.code = none ∧ twoReady.takes .P .planShaping ∧ 1 < (2#8 : Byte).toNat :=
  ⟨rfl, by decide, rfl, ⟨rfl, rfl⟩, by decide⟩

theorem witness_AuthorityLaw :
    exec (.unlock 8#128) (operatorPart .operator) = .next (after (.unlock 8#128) (operatorPart .operator))
      ∧ (operatorPart .operator).authority.lawful
      ∧ (after (.unlock 8#128) (operatorPart .operator)).authority.attempts = 4
      ∧ exec (.setCode 1#8 9#128) State.reset = .next (after (.setCode 1#8 9#128) State.reset) :=
  ⟨rfl, by decide, by decide, rfl⟩

theorem witness_HoldReleaseBinsAndEstop : twoReady.takes .P .operational := ⟨rfl, .inl rfl⟩

/-- A Glued carrier of slot 201, whose left neighbour was laid 300 mm too far right, and the same carrier Faulted. -/
def drifted (stage : Stage) : State :=
  site .opened [(200, setBlock 0 none (some 201) ⟨0, 3300, 3000, 3000, 5⟩), (201, claimedBlock 3000 (some 200) none 0)]
    [{ carrier stage with slot := 201, left := none }]

theorem witness_HeldLaw :
    (exec .claim (after .hold twoReady) = .next (after .claim (after .hold twoReady))
        ∧ (after .hold twoReady).held = true ∧ (after .claim (after .hold twoReady)).dispatcher.hold = true)
      ∧ (exec (.targetRequest 0#8) (drifted .glued) = .next (after (.targetRequest 0#8) (drifted .glued))
        ∧ (drifted .glued).stopx = false ∧ (after (.targetRequest 0#8) (drifted .glued)).stopx = true)
      ∧ (exec (.reject 0#8 1#8) (drifted .faulted) = .next (after (.reject 0#8 1#8) (drifted .faulted))
        ∧ ((drifted .faulted).line.map Carrier.tag).Nodup ∧ (drifted .faulted).faultedLaw
        ∧ (drifted .faulted).stopx = true ∧ (after (.reject 0#8 1#8) (drifted .faulted)).stopx = false
        ∧ (drifted .faulted).line.head? = some { carrier .faulted with slot := 201, left := none })
      ∧ exec .lineReset faultedLine = .next (after .lineReset faultedLine) :=
  ⟨⟨rfl, by decide⟩, ⟨rfl, by decide⟩, ⟨rfl, by decide⟩, rfl⟩

theorem witness_StationRejudgesEverySlot :
    (7 < (8#8 : Byte).toNat ∧ (8#8 : Byte) ≠ 0xFF#8) ∧ (7#8 : Byte).toNat ≤ 7
      ∧ (oneClaimed (carrier .picked)).line ≠ [] ∧ twoReady.line = [] ∧ tableWf twoReady.plan.slots := by decide

/-- Slot 201 meets the conditions; slot 200 fails condition 4 against station 2. -/
theorem witness_RejudgementFollowsTheConditions :
    let s := site .opened [(200, { block .ready 0 none none with reach := 0#8 }), (201, block .planned 3000 none none)]
    tableWf s.plan.slots ∧ s.plan.slot? 201 = some (block .planned 3000 none none)
      ∧ s.plan.readyUnless s.dispatcher.station (block .planned 3000 none none)
      ∧ s.plan.slot? 200 = some { block .ready 0 none none with reach := 0#8 }
      ∧ ¬ s.plan.readyUnless s.dispatcher.station { block .ready 0 none none with reach := 0#8 } := by
  refine ⟨by decide, by decide, ⟨rfl, by decide, ⟨2, by decide, by decide⟩, by decide, by simp [block], by simp [block]⟩,
    by decide, ?_⟩
  rintro ⟨-, -, ⟨n, -, h⟩, -⟩
  simp at h

theorem witness_QueueHoldsTheSmallestKeys :
    tableWf twoReady.plan.slots ∧ twoReady.plan.slot? 200 = some (block .ready 0 none (some 201))
      ∧ twoReady.plan.slot? 201 = some (block .ready 3000 (some 200) none)
      ∧ twoReady.plan.queueByLaw[0]? = some 200 ∧ twoReady.plan.queueByLaw[1]? = some 201 := by decide

theorem witness_StepKeepsTheQueueLaw :
    let s : State := { twoReady with pending := [.claim] }
    tableWf s.plan.slots ∧ s.queueLaw ∧ step s = .next (after .claim { s with pending := [] }) :=
  ⟨by decide, by decide, rfl⟩

/-- A part on which every condition of R48 but the last holds open, and its variants. -/
def fullLine : State :=
  { twoReady with line := (List.range 8).map fun t => { carrier .glued with tag := t } }

theorem witness_ClaimRefusals :
    State.reset.clock = none
      ∧ (twoReady.clock ≠ none ∧ twoReady.dispatcher.station ≠ none ∧ twoReady.estop = false
        ∧ twoReady.dispatcher.hold = false ∧ twoReady.conditions.stop = .opened ∧ twoReady.conditions.glue = .opened
        ∧ twoReady.line.length < 8 ∧ 8 ≤ fullLine.line.length)
      ∧ (site .opened []).dispatcher.queue = []
      ∧ (after .hold twoReady).dispatcher.hold = true ∧ (after (.estopChange true) twoReady).estop = true
      ∧ (after (.conditions 41#8 60#8) twoReady).conditions.stop = .closed
      ∧ (after (.conditions 41#8 59#8) twoReady).conditions.stop = .opened
      ∧ (after (.conditions 41#8 59#8) twoReady).conditions.glue = .closed := by decide

theorem twoReady_claimGoesOn : twoReady.claimGoesOn := by
  refine ⟨by decide, by decide, rfl, rfl, rfl, rfl, by decide, by decide⟩

theorem witness_ClaimTakesABrick :
    tableWf twoReady.plan.slots ∧ twoReady.claimGoesOn ∧ twoReady.dispatcher.queue[0]? = some 200
      ∧ twoReady.plan.slot? 200 = some (block .ready 0 none (some 201))
      ∧ twoReady.mayBeTaken (block .ready 0 none (some 201))
      ∧ twoReady.plan.claimTime (block .ready 0 none (some 201)) = .ok ⟨3000, none⟩ := by
  refine ⟨by decide, twoReady_claimGoesOn, by decide, by decide, ⟨by decide, fun h => ?_⟩, by decide⟩
  exact absurd h (by decide)

/-- Slot 200 rests on a support 300 lower at one end, beyond the bed of 10 to 60: SupportStep. -/
def stepped : State :=
  site .opened [(100, setBlock 0 none none ⟨0, 2970, 3000, 3300, 5⟩), (200, { block .ready 0 none none with supports := [100] })]

theorem witness_ClaimPassesOverAndFaults :
    (let s := after (.binStatus 8#16) twoReady;
      tableWf s.plan.slots ∧ s.queueLaw ∧ s.dispatcher.binEmpty.getLsbD 3 = true ∧ s.dispatcher.queue = [200, 201])
      ∧ tableWf stepped.plan.slots ∧ stepped.queueLaw ∧ stepped.claimGoesOn ∧ stepped.dispatcher.queue[0]? = some 200
      ∧ stepped.plan.slot? 200 = some { block .ready 0 none none with supports := [100] }
      ∧ stepped.mayBeTaken { block .ready 0 none none with supports := [100] }
      ∧ stepped.plan.claimTime { block .ready 0 none none with supports := [100] } = .error .supportStep := by
  refine ⟨by decide, by decide, by decide, ⟨by decide, by decide, rfl, rfl, rfl, rfl, by decide, by decide⟩, by decide,
    by decide, ⟨by decide, fun h => absurd h (by decide)⟩, by decide⟩

theorem witness_ReportTestsAndCutDone :
    (∀ d ∈ (oneClaimed (carrier .picked)).line, d.tag ≠ (7#8 : Byte).toNat)
      ∧ (∃ d ∈ (oneClaimed (carrier .picked)).line, d.tag = (0#8 : Byte).toNat) ∧ 200000 < (200001#32 : Word).toNat
      ∧ (200000#32 : Word).toNat ≤ 200000 ∧ (500000#32 : Word).toNat ≤ 500000
      ∧ (∀ d, fullLine.line.head? = some d → d.tag ≠ (7#8 : Byte).toNat)
      ∧ (oneClaimed { carrier .picked with cutLength := some 2935 }).carrier? 0
        = some { carrier .picked with cutLength := some 2935 }
      ∧ (oneClaimed (carrier .picked)).carrier? 0 = some (carrier .picked) := by
  refine ⟨by decide, by decide, by decide, by decide, by decide, ?_, by decide, by decide⟩
  intro d h
  have e : fullLine.line.head? = some { carrier .glued with tag := 0 } := by decide
  obtain rfl := Option.some.inj (e.symm.trans h)
  decide

theorem witness_GluedFixesTheDeadline :
    (oneClaimed (carrier .picked)).carrier? 0 = some (carrier .picked) ∧ (oneClaimed (carrier .picked)).clock = some 36010
      ∧ (carrier .picked).cutLength = none ∧ (oneClaimed (carrier .picked)).conditions.stale = false
      ∧ (oneClaimed (carrier .targeted)).carrier? 0 = some (carrier .targeted) := by decide

/-- Slot 201 at the head beside a laid slot 200: within the drift limit, and beyond it. -/
def besideLaid (right : Nat) (c : Carrier) : State :=
  site .opened [(200, setBlock 0 none (some 201) ⟨0, right, 3000, 3000, 5⟩), (201, claimedBlock 3000 (some 200) none 0)]
    [{ c with slot := 201 }]

theorem witness_TargetRequestIssuesTheTarget :
    (oneClaimed (carrier .glued)).line.head? = some (carrier .glued) ∧ (carrier .glued).tag = (0#8 : Byte).toNat
      ∧ (oneClaimed (carrier .glued)).plan.slot? 200 = some (claimedBlock 0 none (some 201) 0)
      ∧ (oneClaimed { carrier .targeted with targeted := true } targetedBlock).plan.slot? 200 = some targetedBlock
      ∧ targetedBlock.target = some ⟨3000, 0, 2970⟩
      ∧ ((besideLaid 3145 (carrier .glued)).plan.slot? 200
          = some (setBlock 0 none (some 201) ⟨0, 3145, 3000, 3000, 5⟩)
        ∧ ((heldInBand (3145 + 5) (3145 + 60) 3000 : Int) - 3000).natAbs = 150)
      ∧ 150 < ((heldInBand (3146 + 5) (3146 + 60) 3000 : Int) - 3000).natAbs := by decide

theorem witness_LaidIsJudged :
    let s := oneClaimed { carrier .targeted with targeted := true } targetedBlock
    let late := oneClaimed { carrier .expired with targeted := true } targetedBlock
    s.line.head? = some { carrier .targeted with targeted := true } ∧ tableWf s.plan.slots
      ∧ s.plan.slot? 200 = some targetedBlock ∧ s.clock = some 36010 ∧ targetedBlock.target = some ⟨3000, 0, 2970⟩
      ∧ ((s.plan.wall 8).params.heightTol = 30 ∧ ((3030 : Int) - 3000).natAbs ≤ 30 ∧ ¬ ((3031 : Int) - 3000).natAbs ≤ 30)
      ∧ late.line.head? = some { carrier .expired with targeted := true }
      ∧ (oneClaimed (carrier .expired)).line.head? = some (carrier .expired) := by decide

theorem witness_RejectReturnsTheSlot :
    tableWf (oneClaimed (carrier .glued)).plan.slots
      ∧ (oneClaimed (carrier .glued)).carrier? (0#8 : Byte).toNat = some (carrier .glued)
      ∧ (oneClaimed (carrier .glued)).plan.slot? 200 = some (claimedBlock 0 none (some 201) 0)
      ∧ (carrier .glued).stage ≠ .faulted
      ∧ (oneClaimed (carrier .faulted)).carrier? (0#8 : Byte).toNat = some (carrier .faulted) := by decide

theorem witness_ExpiryAndStaleness :
    let s := oneClaimed { carrier .glued with deadline := some 36010 }
    (s.carrier? 0 = some { carrier .glued with deadline := some 36010 } ∧ s.clock = some 36010)
      ∧ (oneClaimed { carrier .glued with deadline := some 36011 }).carrier? 0
        = some { carrier .glued with deadline := some 36011 }
      ∧ twoReady.carrier? 0 = none
      ∧ (twoReady.conditions.stale = false ∧ twoReady.conditions.lastReport = some 36002
        ∧ min (36002 + 30) 4294967295 ≤ 36032 ∧ 36031 < min (36002 + 30) 4294967295) := by decide

theorem witness_TopIsHeldInTheHeightBand :
    let p := stepped.plan
    let x : Slot := { block .ready 0 none none with supports := [100] }
    (block .ready 0 none none).supports = [] ∧ x.supports ≠ []
      ∧ (x.supports.map fun j => (p.slot? j).bind Slot.asLaid) = [(⟨0, 2970, 3000, 3300, 5⟩ : AsLaid)].map some
      ∧ 3300 ∈ p.supportEnds x ∧ 3000 ∈ p.supportEnds x ∧ (∀ e ∈ p.supportEnds x, 3000 ≤ e ∧ e ≤ 3300)
      ∧ 3000 + 2480 + 60 < 3300 + 2480 + 10
      ∧ 500 ∈ p.supportEnds (block .ready 0 none none) ∧ 500 + 2480 + 10 ≤ 500 + 2480 + 60 := by decide

theorem witness_LeftEndIsHeldInTheJointBand :
    let p := (besideLaid 2970 (carrier .glued)).plan
    let x := claimedBlock 3000 (some 200) none 0
    (∀ j, (block .ready 0 none none).left = some j → p.isLaid j = false)
      ∧ x.left = some 200 ∧ p.slot? 200 = some (setBlock 0 none (some 201) ⟨0, 2970, 3000, 3000, 5⟩)
      ∧ (p.wall 8).params.meetsRanges ∧ 2970 + 5 ≤ x.designLeft ∧ x.designLeft ≤ 2970 + 60 := by
  refine ⟨by simp [block], by decide, by decide, ?_, by decide⟩
  unfold WallParams.meetsRanges
  decide

theorem witness_CloserLengthFitsTheGap :
    (-1 : Int) = ((12029 : Nat) : Int) - ((30 : Nat) : Int) - ((12000 : Nat) : Int)
      ∧ (2938 : Int) = ((14968 : Nat) : Int) - ((30 : Nat) : Int) - ((12000 : Nat) : Int)
      ∧ 2935 % 5 = 0 ∧ ((2935 : Nat) : Int) ≤ 2938 ∧ (2938 : Int) < (2935 : Nat) + 5
      ∧ twoReady.plan.claimTop (block .ready 0 none (some 201)) = .ok 3000
      ∧ stepped.plan.claimTop { block .ready 0 none none with supports := [100] } = .error .supportStep
      ∧ (besideLaid 2970 (carrier .glued)).plan.slot? 200 = some (setBlock 0 none (some 201) ⟨0, 2970, 3000, 3000, 5⟩)
      ∧ (setBlock 0 none (some 201) ⟨0, 2970, 3000, 3000, 5⟩).state.laid = true := by decide

theorem witness_ClockLaw :
    (State.reset.clock = none ∧ twoReady.clock = some 36010 ∧ 36010 < 4294967295
        ∧ (36010 < 4294967294 ∧ twoReady.conditions.stale = false ∧ State.reset.conditions.stale = true)
        ∧ ({ twoReady with clock := some 4294967294 } : State).clock = some 4294967294
        ∧ ({ twoReady with clock := some 4294967295 } : State).clock = some 4294967295)
      ∧ exec (.setTime 5#32) twoReady = .next (after (.setTime 5#32) twoReady)
      ∧ (after (.setTime 5#32) twoReady).clock ≠ twoReady.clock
      ∧ exec .claim (oneClaimed (carrier .glued)) = .next (after .claim (oneClaimed (carrier .glued))) :=
  ⟨by decide, rfl, by decide, rfl⟩

theorem witness_SetTimeMakesTheRecordStale :
    ((operatorPart .operator).engine = .idle ∧ ¬ (operatorPart .operator).takes .P .planShaping)
      ∧ twoReady.takes .P .planShaping ∧ twoReady.line = [] ∧ (oneClaimed (carrier .glued)).takes .P .planShaping
      ∧ (oneClaimed (carrier .glued)).line ≠ [] :=
  ⟨⟨rfl, fun h => absurd h.2 (by decide)⟩, ⟨rfl, rfl⟩, rfl, ⟨rfl, rfl⟩, by decide⟩

theorem witness_ConditionsReportSetsTheGates :
    ((85 : Int) = max (-40) (min 85 (95#8 : Byte).toInt) ∧ 250 = min 250 (255#8 : Byte).toNat
        ∧ (true : Bool) = decide ((85 : Int) ≠ (95#8 : Byte).toInt ∨ 250 ≠ (255#8 : Byte).toNat))
      ∧ (twoReady.clock = some 36010 ∧ 36010 < 4294967295)
      ∧ State.reset.clock = none
      ∧ ({ twoReady with clock := some 4294967295 } : State).clock = some 4294967295 := by decide

theorem witness_SetOptionClampsAndTests :
    ((operatorPart .operator).engine = .idle ∧ ¬ (operatorPart .operator).takes .P .planShaping)
      ∧ State.reset.takes .P .planShaping ∧ State.reset.options.lawful ∧ 10 < (11#8 : Byte).toNat
      ∧ ((7#8 : Byte).toNat, (0 : Int), (250 : Int)) ∈ optionTable
      ∧ (250 : Int) = max 0 (min 250 (500#32 : Word).toInt)
      ∧ (∀ k, ({ Options.defaults with stopClose := 250 } : Options).valueOf k
          = if k = 7 then 250 else State.reset.options.valueOf k)
      ∧ ({ Options.defaults with stopClose := 250 } : Options).pairsHold
      ∧ ¬ ({ Options.defaults with exposureOpen := 250 } : Options).pairsHold := by
  refine ⟨⟨rfl, fun h => absurd h.2 (by decide)⟩, ⟨rfl, rfl⟩, by decide, by decide, by decide, by decide, fun k => ?_, ?_, ?_⟩
  · unfold Options.valueOf State.reset State.powerOn Options.defaults
    split <;> first | rfl | (split <;> first | rfl | (exfalso; simp_all))
  · unfold Options.pairsHold; decide
  · unfold Options.pairsHold; decide

theorem witness_StepKeepsTheRecordsInRange :
    let s : State := { twoReady with pending := [.claim] }
    step s = .next (after .claim { s with pending := [] }) ∧ s.options.lawful ∧ s.weatherLaw ∧ s.events.lawful
      ∧ s.clockRange ∧ s.plan.paramsLaw ∧ tableWf s.plan.slots ∧ s.cursorLaw := by
  refine ⟨rfl, by decide, by decide, by decide, by decide, by decide, by decide, by decide⟩

theorem params8_meetRanges : (WallParams.asCarried wallFields8).meetsRanges := by
  unfold WallParams.meetsRanges; decide

theorem witness_WallDefineAndWallSet :
    State.reset.takes .P .planShaping ∧ (31#8 : Byte).toNat ≤ 31 ∧ 31 < (32#8 : Byte).toNat
      ∧ (State.reset.plan.wall 31).state = .free ∧ (WallParams.asCarried wallFields8).meetsRanges
      ∧ ¬ (WallParams.asCarried { wallFields8 with jointMax := 33#8 }).meetsRanges
      ∧ ((draft []).plan.wall 8).state = .draft ∧ (twoReady.plan.wall 8).state = .opened ∧ twoReady.held = false
      ∧ (after .hold twoReady).held = true
      ∧ (let s := site .opened [(200, { block .ready 0 none none with course := 1 })]
        ∃ e ∈ s.plan.slots, e.2.wall = (8#8 : Byte).toNat
          ∧ (WallParams.asCarried wallFields8).courseCount ≤ e.2.course) := by
  refine ⟨⟨rfl, rfl⟩, by decide, by decide, by decide, params8_meetRanges, ?_, by decide, by decide, by decide, by decide,
    ?_⟩
  · unfold WallParams.meetsRanges; decide
  · exact ⟨(200, { block .ready 0 none none with course := 1 }), by decide, by decide, by decide⟩

theorem witness_WallLifecycle :
    twoReady.takes .P .operational ∧ tableWf twoReady.plan.slots ∧ 31 < (32#8 : Byte).toNat ∧ (8#8 : Byte).toNat ≤ 31
      ∧ (twoReady.plan.wall 8).state = .opened ∧ ((after (.pause 8#8) twoReady).plan.wall 8).state = .paused
      ∧ ((draft []).plan.wall 8).state = .draft ∧ ((draft []).plan.wall 8).audited = true
      ∧ ((after (.slotLoad [record 203 9000]) (draft [])).plan.wall 8).audited = false
      ∧ (State.reset.plan.wall 31).state = .free :=
  ⟨⟨rfl, .inl rfl⟩, by decide⟩

theorem witness_CloseAndWallFree :
    let s := site .opened [(200, setBlock 0 none none ⟨0, 2970, 3000, 3000, 5⟩)]
    s.takes .P .operational ∧ s.takes .P .planShaping ∧ tableWf s.plan.slots ∧ (s.plan.wall 8).state = .opened
      ∧ (∀ e ∈ s.plan.slots.filter fun e => e.2.wall = 8, e.2.state = .set)
      ∧ (∃ e ∈ twoReady.plan.slots.filter fun e => e.2.wall = 8, e.2.state ≠ .set)
      ∧ ((after (.close 8#8) s).plan.wall 8).state = .closed ∧ ((draft []).plan.wall 8).state = .draft :=
  ⟨⟨rfl, .inl rfl⟩, ⟨rfl, rfl⟩, by decide⟩

theorem witness_TypeDefineWritesOneEntry :
    twoReady.takes .P .planShaping ∧ (1#8 : Byte).toNat ≤ 1 ∧ 63 < (64#8 : Byte).toNat ∧ (63#8 : Byte).toNat ≤ 63
      ∧ ((twoReady.plan.brickType 4).defined = true ∧ ∃ e ∈ twoReady.plan.slots, e.2.type = (4#8 : Byte).toNat)
      ∧ (twoReady.plan.brickType 63).defined = false
      ∧ (typeFields4.length.toNat = 2970 ∧ 500 ≤ (500#16 : Half).toNat ∧ (499#16 : Half).toNat < 500
        ∧ (6000#16 : Half).toNat ≤ 6000 ∧ 6000 < (6001#16 : Half).toNat) := by
  refine ⟨⟨rfl, rfl⟩, by decide, by decide, by decide, ⟨by decide, ?_⟩, by decide, by decide⟩
  exact ⟨(200, block .ready 0 none (some 201)), by decide, by decide⟩

theorem witness_SlotLoadTakesItsRecords :
    (draft []).takes .P .planShaping ∧ 1 ≤ [record 200 0].length ∧ (List.replicate 8 (record 200 0)).length ≤ 8
      ∧ tableWf (draft []).plan.slots ∧ (draft []).queueLaw
      ∧ (draft [(203, block .planned 9000 none none)]).plan.slot? (record 203 9000).index.toNat ≠ none
      ∧ (draft []).plan.slot? (record 4095 0).index.toNat = none ∧ (record 4095 0).index.toNat ≤ 4095
      ∧ (draft []).plan.drawnLawful (recordOf (record 200 200000).plan) 0 := by
  refine ⟨⟨rfl, rfl⟩, by decide, by decide, by decide, by decide, by decide, by decide, by decide, ?_⟩
  refine ⟨by decide, by decide, by decide, by decide, ?_, by decide, by decide, by decide, by decide, by decide⟩
  intro n h; exact absurd h (by simp [recordOf, record])

theorem witness_SlotRestoreWritesABuiltSlot :
    let y : Slot := { recordOf (record 7 0).plan with state := .set, asLaid := some ⟨0, 2970, 3002, 2998, 5⟩ }
    (draft []).takes .P .planShaping ∧ (draft []).resolve .P (absolute 7) = some 7
      ∧ (draft []).resolve .P (absolute 4096) = none ∧ tableWf (draft []).plan.slots ∧ (draft []).plan.slot? 7 = none
      ∧ y.wall ≤ 31 ∧ ((draft []).plan.wall y.wall).state = .draft
      ∧ (draft []).plan.restoredLawful y 0 ⟨0, 2970, 3002, 2998, 5⟩
      ∧ ¬ (draft []).plan.restoredLawful y 4 ⟨0, 2970, 3002, 2998, 5⟩
      ∧ (State.reset.plan.wall y.wall).state ≠ .draft ∧ twoReady.plan.slot? 200 ≠ none := by
  refine ⟨⟨rfl, rfl⟩, by decide, by decide, by decide, by decide, by decide, by decide, ?_, ?_, by decide, by decide⟩
  · refine ⟨by decide, by decide, by decide, ⟨by decide, by decide, by decide, by decide, by decide⟩, by decide,
      fun _ n h => ?_, fun h => ?_⟩
    · exact absurd h (by simp [recordOf, record])
    · exact absurd h (by decide)
  · rintro ⟨-, -, -, ⟨h, -⟩, -⟩
    omega

theorem witness_SlotAmendChangesTheNamedFields :
    let x := block .ready 0 none (some 201)
    twoReady.takes .P .planShaping ∧ twoReady.resolve .P (absolute 200) = some 200
      ∧ twoReady.resolve .P (absolute 4096) = none ∧ tableWf twoReady.plan.slots ∧ (127#8 : Byte).getLsbD 7 = false
      ∧ twoReady.plan.slot? 7 = none ∧ twoReady.plan.slot? 200 = some x ∧ twoReady.held = false
      ∧ (after .hold twoReady).held = true
      ∧ (oneClaimed (carrier .glued)).plan.slot? 200 = some (claimedBlock 0 none (some 201) 0)
      ∧ stepped.plan.slot? 100 = some (setBlock 0 none none ⟨0, 2970, 3000, 3300, 5⟩)
      ∧ twoReady.plan.drawnLawful (x.amendedBy 1#8 (record 0 200000).plan.drawn) 0
      ∧ ¬ twoReady.plan.drawnLawful (x.amendedBy 1#8 (record 0 200001).plan.drawn) 0 := by
  refine ⟨⟨rfl, rfl⟩, by decide, by decide, by decide, by decide, by decide, by decide, by decide, by decide, by decide,
    by decide, ?_, ?_⟩
  · refine ⟨by decide, by decide, by decide, by decide, ?_, by decide, by decide, by decide, by decide, by decide⟩
    intro n h; exact absurd h (by simp [Slot.amendedBy, block])
  · rintro ⟨-, h, -⟩
    exact absurd h (by decide)

theorem witness_DeleteWithholdFreeAndClear :
    let d := draft [(200, block .planned 0 none none)]
    let f := site .opened [(200, { block .fault 0 none none with faultReason := some .drift })]
    (d.resolve .P (absolute 200) = some 200 ∧ tableWf d.plan.slots ∧ d.takes .P .planShaping ∧ d.takes .P .operational)
      ∧ d.resolve .P (absolute 4096) = none ∧ d.plan.slot? 7 = none
      ∧ d.plan.slot? 200 = some (block .planned 0 none none) ∧ (d.plan.wall 8).state = .draft
      ∧ f.plan.slot? 200 = some { block .fault 0 none none with faultReason := some .drift }
      ∧ (oneClaimed (carrier .glued)).plan.slot? 200 = some (claimedBlock 0 none (some 201) 0)
      ∧ (setBlock 0 none none ⟨0, 2970, 3000, 3300, 5⟩).state.laid = true
      ∧ twoReady.plan.slot? 200 = some (block .ready 0 none (some 201))
      ∧ (block .ready 0 none (some 201)).withheld = false
      ∧ (after (.withhold (absolute 200)) twoReady).plan.slot? 200
        = some { block .planned 0 none (some 201) with withheld := true } :=
  ⟨⟨by decide, by decide, ⟨rfl, rfl⟩, ⟨rfl, .inl rfl⟩⟩, by decide⟩

theorem witness_AcceptAndLift :
    let s := site .opened [(200, suspectBlock)]
    let b := site .opened [(200, suspectBlock), (201, { setBlock 3000 none none ⟨0, 0, 0, 0, 0⟩ with supports := [200] })]
    s.takes .P .planShaping ∧ s.resolve .P (absolute 200) = some 200 ∧ s.resolve .P (absolute 4096) = none
      ∧ tableWf s.plan.slots ∧ s.plan.slot? 200 = some suspectBlock ∧ s.plan.stateOf 201 ≠ .suspect
      ∧ s.plan.hasBuiltFollower 200 = false ∧ b.plan.hasBuiltFollower 200 = true :=
  ⟨⟨rfl, rfl⟩, by decide⟩

theorem witness_SweepIsTaken :
    twoReady.takes .P .operational ∧ twoReady.takes .P .planShaping ∧ twoReady.resolve .P shift20.start = some 201
      ∧ 3 < (4#8 : Byte).toNat
      ∧ twoReady.resolve .P (absolute 4096) = none ∧ 4096 < (4097#16 : Half).toNat ∧ (4096#16 : Half).toNat ≤ 4096
      ∧ shift20.deltaOrType.toInt = 20 ∧ (10001#16 : Half).toInt = 10001 ∧ (0xD8F0#16 : Half).toInt = -10000
      ∧ (twoReady.plan.brickType 4).defined = true ∧ (twoReady.plan.brickType 5).defined = false
      ∧ SlotState.empty.code = (0#8 : Byte).toNat ∧ SlotState.retired.code = (7#8 : Byte).toNat :=
  ⟨⟨rfl, .inl rfl⟩, ⟨rfl, rfl⟩, by decide⟩

theorem witness_SweepStepTakesItsTests :
    let c := context 201 1 .withhold .always
    (sweeping c).sweepReaches c 201 ∧ tableWf (sweeping c).plan.slots
      ∧ (sweeping c).plan.slot? 201 = some (block .ready 3000 (some 200) none) ∧ (sweeping c).plan.slot? 4095 = none
      ∧ (sweeping (context 4095 1 .free (.whileIn .empty))).sweepReaches (context 4095 1 .free (.whileIn .empty)) 4095
      ∧ (sweeping (context 200 1 .free (.untilIn .empty))).sweepReaches (context 200 1 .free (.untilIn .empty)) 200
      ∧ (context 4096 1 .free .always).index > 4095 ∧ (context (-1) 1 .free .always).index < 0
      ∧ twoReady.plan.stateOf 200 ≠ .empty ∧ (context 0 0 .free .always).remaining = 0 := by
  refine ⟨⟨rfl, rfl, by decide, rfl, by decide, .inl rfl⟩, by decide, by decide, by decide,
    ⟨rfl, rfl, by decide, rfl, by decide, .inr (.inl (by decide))⟩,
    ⟨rfl, rfl, by decide, rfl, by decide, .inr (.inr ⟨.empty, rfl, by decide⟩)⟩, by decide, by decide, by decide, rfl⟩

theorem witness_SweepStepEdits :
    let c := context 201 1 (.shift 20) .always
    let x := block .ready 3000 (some 200) none
    (sweeping c).sweepReaches c 201 ∧ (sweeping c).plan.slot? 201 = some x ∧ tableWf (sweeping c).plan.slots
      ∧ (sweeping c).held = false ∧ (sweeping c (after .hold twoReady)).held = true
      ∧ ((x.designLeft : Int) + 197000 ≤ 200000 ∧ 200000 < (x.designLeft : Int) + 197001 ∧ (x.designLeft : Int) + -3001 < 0)
      ∧ (oneClaimed (carrier .glued)).plan.slot? 200 = some (claimedBlock 0 none (some 201) 0)
      ∧ (twoReady.plan.brickType 4).minCut = 600 ∧ 599 < 600
      ∧ (sweeping (context 7 1 (.shift 20) .always)).sweepReaches (context 7 1 (.shift 20) .always) 7
      ∧ twoReady.plan.slot? 7 = none ∧ unjudged.plan.slot? 201 = some (block .planned 3000 (some 200) none) := by
  refine ⟨⟨rfl, rfl, by decide, rfl, by decide, .inl rfl⟩, by decide, by decide, by decide, by decide, by decide, by decide,
    by decide, by decide, ⟨rfl, rfl, by decide, rfl, by decide, .inl rfl⟩, by decide, by decide⟩

theorem witness_AuditAndAbort :
    let d := draft [(200, block .planned 0 none none)]
    let a := after (.audit 8#8) d
    d.takes .P .read ∧ 31 < (32#8 : Byte).toNat ∧ (31#8 : Byte).toNat ≤ 31 ∧ (d.plan.wall 31).state = .free
      ∧ (d.plan.wall 8).state ≠ .free ∧ a.engine = .audit ⟨8, none, false⟩ ∧ tableWf a.plan.slots
      ∧ ((a.plan.slots.filter fun e => e.2.wall = 8 ∧ ∀ l ∈ (none : Option Nat), l < e.1).head?
          = some (200, block .planned 0 none none))
      ∧ a.plan.auditSlot 200 (block .planned 0 none none) = none
      ∧ (after .auditStep a).engine = .audit ⟨8, some 200, false⟩
      ∧ (after .abort a).engine = .audit ⟨8, none, true⟩
      ∧ a.plan.failsCheck 200 { block .planned 0 none none with type := 5 } .typeUndefined
      ∧ auditOrder[0]? = some .typeUndefined ∧ auditOrder[9]? = some .reachEmpty :=
  ⟨rfl, by decide, by decide, by decide, by decide, by decide, by decide, by decide, by decide, by decide, by decide,
    by unfold Plan.failsCheck; decide, rfl, rfl⟩

theorem witness_LineResetLeaves :
    tableWf faultedLine.plan.slots ∧ faultedLine.lineLaw
      ∧ faultedLine.plan.slot? 200 = some (claimedBlock 0 none (some 201) 0)
      ∧ faultedLine.plan.slot? 201 = some (block .ready 3000 (some 200) none) ∧ faultedLine.line = [carrier .faulted]
      ∧ (oneClaimed (carrier .glued)).lineLaw := by decide

/-- The laws hold in a state with a carrier on the line. -/
def busySite : State := { oneClaimed { carrier .targeted with targeted := true } targetedBlock with pending := [.claim] }

theorem busySite_consistent : busySite.Consistent :=
  ⟨by decide, by decide, by decide, by decide, by decide, by decide⟩

theorem witness_StepKeepsConsistent :
    busySite.Consistent ∧ step busySite = .next (after .claim { busySite with pending := [] }) ∧ busySite.faultedLaw :=
  ⟨busySite_consistent, rfl, by decide⟩

theorem witness_NoCommandStops :
    busySite.Consistent ∧ (Instr.laid 0#8 ⟨0#32, 2970#32, 3002#32, 2998#32⟩).wellFormed = true
      ∧ busySite.pending.head? = some .claim ∧ Instr.claim.wellFormed = true :=
  ⟨busySite_consistent, rfl, rfl, rfl⟩

theorem witness_StepKeepsPartsAndCounts :
    busySite.Consistent ∧ step busySite = .next (after .claim { busySite with pending := [] }) ∧ busySite.plan.partsLaw
      ∧ busySite.plan.countsLaw := ⟨busySite_consistent, rfl, by decide, by decide⟩

end Sys2Proof.Tests
end

/-! PROOFS of the lay plan (spec/01): slot addresses (R13), the reads of the plan (R16, R17), and the wall
commands Wall Define, Wall Set, Wall Open, Pause, Resume and Priority (R18 to R23). -/

namespace Sys2Proof.Machine

open Sys2Proof

/-! ### Places in a sorted list -/

/-- In a strictly sorted list the element at a place is the one that as many elements precede. -/
theorem getElem?_eq_some_iff_rank {α : Type} {lt : α → α → Bool} (asymm : ∀ a b, lt a b = true → lt b a = false)
    {l : List α} (hl : l.Pairwise fun a b => lt a b = true) (k : Nat) (a : α) :
    l[k]? = some a ↔ a ∈ l ∧ (l.filter fun b => lt b a).length = k := by
  induction l generalizing k with
  | nil => simp
  | cons b l ih =>
    obtain ⟨hb, hl⟩ := List.pairwise_cons.1 hl
    have irrefl : ∀ c, lt c c = false := fun c =>
      Bool.eq_false_of_not_eq_true fun h => by simp [asymm c c h] at h
    have head_rank : ((b :: l).filter fun c => lt c b).length = 0 := by
      have : ∀ c ∈ l, lt c b = false := fun c hc => asymm b c (hb c hc)
      simpa [irrefl] using this
    have tail_rank (ha : a ∈ l) :
        ((b :: l).filter fun c => lt c a).length = (l.filter fun c => lt c a).length + 1 := by
      simp [hb a ha]
    have hbl : b ∉ l := fun h => by simpa [irrefl] using hb b h
    rw [List.mem_cons]
    by_cases ha : a = b
    · subst ha
      rw [head_rank]
      cases k with
      | zero => simp
      | succ k => simpa using fun h => hbl (List.mem_of_getElem? h)
    · by_cases hm : a ∈ l
      · rw [tail_rank hm]
        cases k with
        | zero => simp [Ne.symm ha]
        | succ k => simpa [hm] using ih hl k
      · cases k with
        | zero => simp [ha, hm, Ne.symm ha]
        | succ k => simpa [ha, hm] using fun h => hm (List.mem_of_getElem? h)

/-! ### The order of a coordinate's slots (R13) -/

theorem ordinalBefore_iff (a b : Nat × Slot) : ordinalBefore a b = true ↔
    a.2.designLeft < b.2.designLeft ∨ (a.2.designLeft = b.2.designLeft ∧ a.1 < b.1) := by
  unfold ordinalBefore
  split <;> simp <;> omega

theorem ordinalBefore_asymm (a b : Nat × Slot) (h : ordinalBefore a b = true) : ordinalBefore b a = false := by
  rw [← Bool.not_eq_true]
  rw [ordinalBefore_iff] at h ⊢
  omega

/-- The slots of a wall and course, with their records, in the order of R13. -/
def Plan.courseSorted (p : Plan) (w c : Nat) : SlotTable :=
  (p.slots.filter fun e => e.2.wall = w ∧ e.2.course = c).insertionSort fun a b => ordinalBefore b a = false

theorem Plan.courseOrder_eq (p : Plan) (w c : Nat) : p.courseOrder w c = (p.courseSorted w c).map Prod.fst := rfl

theorem Plan.courseSorted_perm (p : Plan) (w c : Nat) :
    (p.courseSorted w c).Perm (p.slots.filter fun e => e.2.wall = w ∧ e.2.course = c) := List.perm_insertionSort _ _

/-- Different indices leave no two slots of a course in one place of its order. -/
theorem Plan.courseSorted_pairwise {p : Plan} (hp : tableWf p.slots) (w c : Nat) :
    (p.courseSorted w c).Pairwise fun a b => ordinalBefore a b = true := by
  have total : Std.Total fun a b : Nat × Slot => ordinalBefore b a = false :=
    ⟨fun a b => by simp only [← Bool.not_eq_true, ordinalBefore_iff]; omega⟩
  have trans : IsTrans (Nat × Slot) fun a b => ordinalBefore b a = false :=
    ⟨fun a b c => by simp only [← Bool.not_eq_true, ordinalBefore_iff]; omega⟩
  have sorted : (p.courseSorted w c).Pairwise fun a b => ordinalBefore b a = false :=
    List.pairwise_insertionSort (fun a b : Nat × Slot => ordinalBefore b a = false) _
  have nodup : ((p.courseSorted w c).map Prod.fst).Nodup :=
    ((p.courseSorted_perm w c).map Prod.fst).nodup_iff.2 (tableSorted.sublist hp.1 List.filter_sublist).nodup
  refine (sorted.and (List.pairwise_map.1 nodup)).imp ?_
  rintro a b ⟨hle, hne⟩
  rw [← Bool.not_eq_true, ordinalBefore_iff] at hle
  rw [ordinalBefore_iff]
  omega

/-- The slot a coordinate and an ordinal name is the one that as many slots of the course precede. -/
theorem Plan.courseOrder_getElem? {p : Plan} (hp : tableWf p.slots) (w c k i : Nat) :
    (p.courseOrder w c)[k]? = some i ↔ ∃ x, p.slot? i = some x ∧ x.wall = w ∧ x.course = c
      ∧ (p.slots.filter fun e => e.2.wall = x.wall ∧ e.2.course = x.course
          ∧ (e.2.designLeft < x.designLeft ∨ (e.2.designLeft = x.designLeft ∧ e.1 < i))).length = k := by
  have rank (x : Slot) : ((p.courseSorted w c).filter fun e => ordinalBefore e (i, x)).length
      = (p.slots.filter fun e => e.2.wall = w ∧ e.2.course = c
          ∧ (e.2.designLeft < x.designLeft ∨ (e.2.designLeft = x.designLeft ∧ e.1 < i))).length := by
    rw [((p.courseSorted_perm w c).filter _).length_eq, List.filter_filter]
    congr 1
    apply List.filter_congr
    intro e _
    rw [Bool.eq_iff_iff]
    simp only [Bool.and_eq_true, decide_eq_true_eq, ordinalBefore_iff]
    tauto
  have named (x : Slot) : (p.courseSorted w c)[k]? = some (i, x) ↔ p.slot? i = some x ∧ x.wall = w ∧ x.course = c
      ∧ (p.slots.filter fun e => e.2.wall = x.wall ∧ e.2.course = x.course
          ∧ (e.2.designLeft < x.designLeft ∨ (e.2.designLeft = x.designLeft ∧ e.1 < i))).length = k := by
    rw [getElem?_eq_some_iff_rank ordinalBefore_asymm (Plan.courseSorted_pairwise hp w c), rank,
      (p.courseSorted_perm w c).mem_iff, List.mem_filter, Plan.mem_slots_iff hp, decide_eq_true_eq,
      and_assoc, and_assoc]
    refine and_congr_right fun _ => and_congr_right fun hw => and_congr_right fun hc => ?_
    rw [hw, hc]
  rw [Plan.courseOrder_eq, List.getElem?_map, Option.map_eq_some_iff]
  constructor
  · rintro ⟨⟨j, x⟩, hx, rfl⟩
    exact ⟨x, (named x).1 hx⟩
  · rintro ⟨x, hx⟩
    exact ⟨(i, x), (named x).2 hx, rfl⟩

/-! ### What an address resolves to, mode by mode (R13, R176) -/

section Resolution

variable {s : State} {p : Port} {a : SlotAddress} {i : Nat}

theorem State.resolve_absolute (h : a.mode = 1#8) :
    s.resolve p a = some i ↔ i = a.byte1.toNat + 256 * a.byte2.toNat ∧ i ≤ 4095 := by
  have index : (a.byte2 ++ a.byte1).toNat = a.byte1.toNat + 256 * a.byte2.toNat := by
    rw [BitVec.toNat_append, ← Nat.shiftLeft_add_eq_or_of_lt a.byte1.isLt, Nat.shiftLeft_eq]
    omega
  have unfolded : s.resolve p a =
      if (a.byte2 ++ a.byte1).toNat < 4096 then some (a.byte2 ++ a.byte1).toNat else none := by
    unfold State.resolve
    rw [h]
    rfl
  rw [unfolded, index, Option.ite_none_right_eq_some, Option.some.injEq]
  omega

theorem State.resolve_coordinate (h : a.mode = 2#8) : s.resolve p a = some i ↔ a.byte1.toNat ≤ 31
    ∧ a.byte2.toNat ≤ 63 ∧ (s.plan.courseOrder a.byte1.toNat a.byte2.toNat)[a.byte3.toNat]? = some i := by
  simp only [State.resolve, h, BitVec.toNat_ofNat, Nat.reducePow, Nat.reduceMod, Config.wallCount,
    Option.ite_none_right_eq_some, Nat.lt_succ_iff, and_assoc]

theorem State.resolve_relative (h : a.mode = 3#8) :
    s.resolve p a = some i ↔ (i : Int) = ((s.port p).cursor : Int) + a.byte1.toInt ∧ i ≤ 4095 := by
  have unfolded : s.resolve p a =
      if 0 ≤ ((s.port p).cursor : Int) + a.byte1.toInt ∧ ((s.port p).cursor : Int) + a.byte1.toInt < 4096 then
        some (((s.port p).cursor : Int) + a.byte1.toInt).toNat
      else none := by
    unfold State.resolve
    rw [h]
    rfl
  rw [unfolded, Option.ite_none_right_eq_some, Option.some.injEq]
  omega

theorem State.resolve_unknown_mode (h1 : a.mode ≠ 1#8) (h2 : a.mode ≠ 2#8) (h3 : a.mode ≠ 3#8) :
    s.resolve p a = none := by
  unfold State.resolve
  split
  · exact absurd (BitVec.eq_of_toNat_eq ‹_›) h1
  · exact absurd (BitVec.eq_of_toNat_eq ‹_›) h2
  · exact absurd (BitVec.eq_of_toNat_eq ‹_›) h3
  · rfl

end Resolution

/-- Settles O5: mode by mode, a coordinate address by the place of its slot in the order of its course. -/
theorem addressResolution : Obligations.AddressResolution := by
  intro s p a i hs
  by_cases h1 : a.mode = 1#8
  · simp [State.resolve_absolute h1, h1]
  by_cases h2 : a.mode = 2#8
  · simp only [State.resolve_coordinate h2, h2, Plan.courseOrder_getElem? hs]
    simp
  by_cases h3 : a.mode = 3#8
  · simp [State.resolve_relative h3, h3]
  simp [State.resolve_unknown_mode h1 h2 h3, h1, h2, h3]

/-! ### Wall and type indices -/

theorem lt_wallCount_iff {n : Nat} : n < Config.wallCount ↔ n ≤ 31 := Nat.lt_succ_iff

theorem lt_typeCount_iff {n : Nat} : n < Config.typeCount ↔ n ≤ 63 := Nat.lt_succ_iff

/-! ### A command on a wall (section 1.6) -/

section WallCommands

variable {s : State} {w : Byte} {code : Byte} {c : CommandClass} {take : Nat → Wall → State → State}

/-- A wall above 31 is refused before any test of the command itself. -/
theorem State.next_withWall_above (ht : s.takes .P c) (hw : 31 < w.toNat) :
    (.next (s.onPlanPort code c fun s => s.withWall code w take) : Result) = .next (s.refuse .P code .badAddress) := by
  rw [State.onPlanPort_of_takes ht, State.withWall_above (mt lt_wallCount_iff.1 (Nat.not_le.2 hw))]

/-- A wall of the table comes to the command's own tests with its record. -/
theorem State.next_withWall_below (ht : s.takes .P c) (hw : w.toNat ≤ 31) :
    (.next (s.onPlanPort code c fun s => s.withWall code w take) : Result)
      = .next (take w.toNat (s.plan.wall w.toNat) s) := by
  rw [State.onPlanPort_of_takes ht, State.withWall_below (lt_wallCount_iff.2 hw)]

theorem exec_wallDefine (ht : s.takes .P .planShaping) (hw : w.toNat ≤ 31) (f : WallFields) (priority : Byte) :
    exec (.wallDefine w f priority) s = .next (
      if (s.plan.wall w.toNat).state ≠ .free then s.refuse .P 0x20 .badState
      else if (WallParams.asCarried f).inRange then
        ((s.modifyWall w.toNat fun _ =>
          draftWall (WallParams.asCarried f) (cappedPriority priority)).reselect).refuse .P 0x20 .ok
      else s.refuse .P 0x20 .badValue) :=
  State.next_withWall_below ht hw

theorem exec_wallSet (ht : s.takes .P .planShaping) (hw : w.toNat ≤ 31) (f : WallFields) :
    exec (.wallSet w f) s = .next (
      if (s.plan.wall w.toNat).state = .free ∨ (s.plan.wall w.toNat).state = .closed then s.refuse .P 0x21 .badState
      else if (s.plan.wall w.toNat).state.live && !s.held then s.refuse .P 0x21 .notHeld
      else if !(WallParams.asCarried f).inRange then s.refuse .P 0x21 .badValue
      else if (s.plan.wall w.toNat).state.live
          && s.plan.courseCountTooLow w.toNat (WallParams.asCarried f).courseCount then
        s.refuse .P 0x21 .badValue
      else
        (s.modifyWall w.toNat fun y => { y with
          params := WallParams.asCarried f
          audited := y.audited && !(WallParams.asCarried f).geometryDiffers y.params }).refuse .P 0x21 .ok) :=
  State.next_withWall_below ht hw

theorem exec_wallOpen (ht : s.takes .P .operational) (hw : w.toNat ≤ 31) :
    exec (.wallOpen w) s = .next (
      if (s.plan.wall w.toNat).state ≠ .draft then s.refuse .P 0x22 .badState
      else if (s.plan.wall w.toNat).audited then (s.setWallState w.toNat .opened).refuse .P 0x22 .ok
      else s.refuse .P 0x22 .notAudited) :=
  State.next_withWall_below ht hw

theorem exec_pause (ht : s.takes .P .operational) (hw : w.toNat ≤ 31) :
    exec (.pause w) s = .next (
      if (s.plan.wall w.toNat).state = .opened then (s.setWallState w.toNat .paused).refuse .P 0x23 .ok
      else s.refuse .P 0x23 .badState) :=
  State.next_withWall_below ht hw

theorem exec_resume (ht : s.takes .P .operational) (hw : w.toNat ≤ 31) :
    exec (.resume w) s = .next (
      if (s.plan.wall w.toNat).state = .paused then (s.setWallState w.toNat .opened).refuse .P 0x24 .ok
      else s.refuse .P 0x24 .badState) :=
  State.next_withWall_below ht hw

theorem exec_priority (ht : s.takes .P .operational) (hw : w.toNat ≤ 31) (value : Byte) :
    exec (.priority w value) s = .next (
      if (s.plan.wall w.toNat).state = .free then s.refuse .P 0x27 .badState
      else ((s.modifyWall w.toNat fun y => { y with priority := cappedPriority value }).reselect).refuse .P 0x27 .ok) :=
  State.next_withWall_below ht hw

end WallCommands

/-! ### The wall lifecycle (R20 to R23) -/

/-- A wall's new state re-judges all its slots at once (R20 to R22, R36). -/
theorem State.setWallState_eq {s : State} (hs : tableWf s.plan.slots) (w : Nat) (st : WallState) :
    s.setWallState w st = ({ s with
      plan := s.plan.modifyWall w fun y => { y with state := st } } : State).afterJudging
        ((s.plan.slotsOf w).map Prod.fst) :=
  State.rejudge_eq (s := s.modifyWall w fun y => { y with state := st }) hs _

/-- A change of one wall that moves no judgement brings the queue to the new keys. -/
theorem State.reselect_modifyWall (s : State) (w : Nat) (f : Wall → Wall) :
    (s.modifyWall w f).reselect = s.replan (s.plan.modifyWall w f) := rfl

/-- Settles O44: each command's tests in its order; a changed state re-judges the wall's slots as one cause. -/
theorem wallLifecycle : Obligations.WallLifecycle := by
  rintro s w v x ids ht rfl rfl hs
  refine ⟨fun hw => ⟨State.next_withWall_above ht hw, State.next_withWall_above ht hw,
      State.next_withWall_above ht hw, State.next_withWall_above ht hw⟩,
    fun hw => ⟨fun h => ?_, fun h ha => ?_, fun h ha => ?_, fun h => ?_, fun h => ?_, fun h => ?_, fun h => ?_,
      fun h => ?_, fun h => ?_⟩⟩
  -- Wall Open
  · rw [exec_wallOpen ht hw, if_pos h]
  · simp [exec_wallOpen ht hw, h, ha]
  · simp [exec_wallOpen ht hw, h, ha, State.setWallState_eq hs]
  -- Pause
  · rw [exec_pause ht hw, if_neg h]
  · rw [exec_pause ht hw, if_pos h, State.setWallState_eq hs]
  -- Resume
  · rw [exec_resume ht hw, if_neg h]
  · rw [exec_resume ht hw, if_pos h, State.setWallState_eq hs]
  -- Priority
  · rw [exec_priority ht hw, if_pos h]
  · rw [exec_priority ht hw, if_neg h, State.reselect_modifyWall]
    rfl

/-! ### The reads of the plan (R16, R17) -/

/-- Settles O7: each read in the order its port takes it. -/
theorem readsOfThePlan : Obligations.ReadsOfThePlan := by
  intro s p ht
  refine ⟨fun a i hi => ?_, fun w => ?_, fun t => ?_⟩
  · simp only [exec, execSlotRead, State.onPort_of_takes ht, State.withAddress_some hi, State.setCursor_plan]
  · simp only [exec, execWallRead, State.onPort_of_takes ht, lt_wallCount_iff]
    exact ⟨fun h => by rw [if_pos h], fun h => by rw [if_neg (Nat.not_le.2 h)]⟩
  · simp only [exec, execTypeRead, State.onPort_of_takes ht, lt_typeCount_iff]
    exact ⟨fun h => by rw [if_pos h], fun h => by rw [if_neg (Nat.not_le.2 h)]⟩

/-! ### Wall Define and Wall Set (R18, R19) -/

theorem WallState.live_iff (st : WallState) : st.live = true ↔ st = .opened ∨ st = .paused := by
  cases st <;> decide

/-- Test 4 of R19. -/
theorem Plan.courseCountTooLow_iff (p : Plan) (w count : Nat) :
    p.courseCountTooLow w count = true ↔ ∃ e ∈ p.slots, e.2.wall = w ∧ count ≤ e.2.course := by
  simp [Plan.courseCountTooLow, Plan.slotsOf]

theorem WallParams.geometryDiffers_eq (a b : WallParams) : (!a.geometryDiffers b)
    = decide (a.base = b.base ∧ a.courseHeight = b.courseHeight ∧ a.courseCount = b.courseCount) := by
  rw [Bool.eq_iff_iff]
  simp [WallParams.geometryDiffers, and_assoc]

/-- A change of one wall depends on its record alone. -/
theorem Plan.modifyWall_congr (p : Plan) (w : Nat) {f g : Wall → Wall} (h : f (p.wall w) = g (p.wall w)) :
    p.modifyWall w f = p.modifyWall w g := by
  simp only [Plan.modifyWall, h]

/-- A wall whose parameters Wall Set may write: a Draft, or Open or Paused while HELD is asserted (R19
tests 1 and 2). -/
def State.settable (s : State) (x : Wall) : Prop :=
  x.state = .draft ∨ ((x.state = .opened ∨ x.state = .paused) ∧ s.held = true)

section WallSet

variable {s : State} {w : Byte} {f : WallFields}

/-- Wall Set past its tests 1 and 2 (R19). -/
theorem exec_wallSet_of_settable (ht : s.takes .P .planShaping) (hw : w.toNat ≤ 31)
    (h : s.settable (s.plan.wall w.toNat)) :
    exec (.wallSet w f) s = .next (
      if !(WallParams.asCarried f).inRange then s.refuse .P 0x21 .badValue
      else if (s.plan.wall w.toNat).state.live
          && s.plan.courseCountTooLow w.toNat (WallParams.asCarried f).courseCount then
        s.refuse .P 0x21 .badValue
      else
        (s.modifyWall w.toNat fun y => { y with
          params := WallParams.asCarried f
          audited := y.audited && !(WallParams.asCarried f).geometryDiffers y.params }).refuse .P 0x21 .ok) := by
  rw [exec_wallSet ht hw]
  rcases h with h | ⟨h | h, hh⟩
  · simp [h, WallState.live]
  · simp [h, hh]
  · simp [h, hh]

/-- A Wall Set that is taken writes all parameters, and the audited flag stays where the geometry does (R19). -/
theorem exec_wallSet_taken (ht : s.takes .P .planShaping) (hw : w.toNat ≤ 31) (h : s.settable (s.plan.wall w.toNat))
    (hr : (WallParams.asCarried f).meetsRanges)
    (hc : (s.plan.wall w.toNat).state = .draft
      ∨ ∀ e ∈ s.plan.slots, e.2.wall = w.toNat → e.2.course < (WallParams.asCarried f).courseCount) :
    exec (.wallSet w f) s = .next ((s.modifyWall w.toNat fun y => { y with
      params := WallParams.asCarried f
      audited := y.audited && !(WallParams.asCarried f).geometryDiffers y.params }).refuse .P 0x21 .ok) := by
  have fits : ((s.plan.wall w.toNat).state.live
      && s.plan.courseCountTooLow w.toNat (WallParams.asCarried f).courseCount) = false := by
    rw [← Bool.not_eq_true, Bool.and_eq_true, WallState.live_iff, Plan.courseCountTooLow_iff]
    rintro ⟨hl, e, he, hew, hle⟩
    rcases hc with hc | hc
    · simp [hc] at hl
    · exact absurd (hc e he hew) (Nat.not_lt.2 hle)
  rw [exec_wallSet_of_settable ht hw h]
  simp [(WallParams.inRange_iff _).2 hr, fits]

end WallSet

/-- Settles O43: the tests of each command in its order, the wall's index first. -/
theorem wallDefineAndWallSet : Obligations.WallDefineAndWallSet := by
  rintro s w f priority x p ht rfl rfl
  have ranges := WallParams.inRange_iff (WallParams.asCarried f)
  refine ⟨fun hw => ⟨State.next_withWall_above ht hw,
    State.next_withWall_above ht hw⟩, fun hw =>
    ⟨fun h => ?_, fun h hr => ?_, fun h hr => ?_, fun h => ?_, fun h hh => ?_, fun h => ⟨fun hr => ?_,
      fun hr hd hc => ?_, fun hr hc => ?_⟩⟩⟩
  -- Wall Define
  · rw [exec_wallDefine ht hw, if_pos h]
  · rw [exec_wallDefine ht hw, if_neg (not_not.2 h), if_neg (mt ranges.1 hr)]
  · rw [exec_wallDefine ht hw, if_neg (not_not.2 h), if_pos (ranges.2 hr), State.reselect_modifyWall]
    rfl
  -- Wall Set
  · rw [exec_wallSet ht hw, if_pos h]
  · rcases h with h | h <;> simp [exec_wallSet ht hw, h, hh, WallState.live]
  · simp [exec_wallSet_of_settable ht hw h, mt ranges.1 hr]
  · have live := (WallState.live_iff _).2 ((h.resolve_left hd).1)
    have low := (Plan.courseCountTooLow_iff _ _ _).2 hc
    simp [exec_wallSet_of_settable ht hw h, live, low]
  · rw [exec_wallSet_taken ht hw h hr hc, State.modifyWall]
    congr 3
    apply Plan.modifyWall_congr
    rw [WallParams.geometryDiffers_eq]

end Sys2Proof.Machine

/-! PROOFS of readiness and the dispatch order (spec/02): the queue law (R37, R38), Queue Read (R42) and
re-judgement (R26, R27). -/

namespace Sys2Proof.Machine

open Sys2Proof

/-! ### The dispatch key as a strict order (R37) -/

section Keys

variable {p : Plan} {i j m n : Nat} {x y : Slot}

theorem Plan.keyBefore_asymm (h : p.keyBefore i x j y) : ¬ p.keyBefore j y i x := by
  unfold Plan.keyBefore at *
  omega

/-- The index, part 5 of a key, leaves no two slots with equal keys. -/
theorem Plan.keyBefore_total (h : i ≠ j) : p.keyBefore i x j y ∨ p.keyBefore j y i x := by
  unfold Plan.keyBefore
  omega

/-! ### The Ready slots in their order -/

theorem Plan.readySorted_pairwise_keyBefore (hp : tableWf p.slots) :
    p.readySorted.Pairwise fun a b => p.keyBefore a.1 a.2 b.1 b.2 := by
  have distinct : p.readySorted.Pairwise fun a b => a.1 ≠ b.1 := List.pairwise_map.1 (Plan.readyOrder_nodup hp)
  exact (distinct.and p.readySorted_pairwise).imp fun ⟨hne, hle⟩ => p.keyBefore_of_keyLe hne hle

/-- A place of the order holds the record that the plan reads at its index. -/
theorem Plan.readySorted_getElem? (hp : tableWf p.slots) (hi : p.readyOrder[m]? = some i) (hx : p.slot? i = some x) :
    p.readySorted[m]? = some (i, x) := by
  rw [Plan.readyOrder_eq, List.getElem?_map, Option.map_eq_some_iff] at hi
  obtain ⟨⟨k, z⟩, hz, rfl⟩ := hi
  have read : p.slot? k = some z := ((Plan.mem_readySorted hp).1 (List.mem_of_getElem? hz)).1
  rw [hz, Option.some.inj (read.symm.trans hx)]

theorem Plan.keyBefore_of_readyOrder_lt (hp : tableWf p.slots) (hmn : m < n) (hi : p.readyOrder[m]? = some i)
    (hj : p.readyOrder[n]? = some j) (hx : p.slot? i = some x) (hy : p.slot? j = some y) : p.keyBefore i x j y := by
  obtain ⟨hm, him⟩ := List.getElem?_eq_some_iff.1 (Plan.readySorted_getElem? hp hi hx)
  obtain ⟨hn, hjn⟩ := List.getElem?_eq_some_iff.1 (Plan.readySorted_getElem? hp hj hy)
  have before := List.pairwise_iff_getElem.1 (Plan.readySorted_pairwise_keyBefore hp) m n hm hn hmn
  rwa [him, hjn] at before

/-! ### The queue: the front 64 places of the order (R38) -/

theorem Plan.queueByLaw_length (p : Plan) : p.queueByLaw.length = min 64 p.readySlots.length := by
  rw [Plan.queueByLaw, List.length_take, Plan.readyOrder_eq, List.length_map, p.readySorted_perm.length_eq]
  rfl

theorem Plan.queueByLaw_getElem?_eq_some :
    p.queueByLaw[m]? = some i ↔ m < 64 ∧ p.readyOrder[m]? = some i := by
  rw [Plan.queueByLaw, List.getElem?_take, Option.ite_none_right_eq_some]
  rfl

/-- A slot of the order that the queue leaves out stands behind the first 64. -/
theorem Plan.place_of_not_mem_queue (hj : p.readyOrder[n]? = some j) (h : j ∉ p.queueByLaw) : 64 ≤ n := by
  by_contra hn
  exact h (List.mem_of_getElem? (Plan.queueByLaw_getElem?_eq_some.2 ⟨Nat.lt_of_not_le hn, hj⟩))

/-- A queued slot has a smaller key than every Ready slot that is not queued. -/
theorem Plan.keyBefore_of_not_mem_queue (hp : tableWf p.slots) (hi : i ∈ p.queueByLaw) (hj : j ∉ p.queueByLaw)
    (ready : y.state = .ready) (hx : p.slot? i = some x) (hy : p.slot? j = some y) : p.keyBefore i x j y := by
  obtain ⟨m, hm⟩ := List.mem_iff_getElem?.1 hi
  obtain ⟨hm64, him⟩ := Plan.queueByLaw_getElem?_eq_some.1 hm
  obtain ⟨n, hjn⟩ := List.mem_iff_getElem?.1 ((Plan.mem_readyOrder hp).2 ⟨y, hy, ready⟩)
  have behind : 64 ≤ n := Plan.place_of_not_mem_queue hjn hj
  exact Plan.keyBefore_of_readyOrder_lt hp (Nat.lt_of_lt_of_le hm64 behind) him hjn hx hy

end Keys

/-- Settles O24: the queue is the front of the Ready slots sorted by a strict total order. -/
theorem queueHoldsTheSmallestKeys : Obligations.QueueHoldsTheSmallestKeys := by
  intro p hp
  refine ⟨fun i j x y _ _ hne => ?_, p.queueByLaw_length, ?_, fun i hi => ?_, fun m n i j x y hmn hi hj hx hy => ?_,
    fun i j x y hi hj ready hx hy => Plan.keyBefore_of_not_mem_queue hp hi hj ready hx hy⟩
  · exact (Plan.keyBefore_total hne).imp (fun h => ⟨h, Plan.keyBefore_asymm h⟩) fun h => ⟨h, Plan.keyBefore_asymm h⟩
  · exact (Plan.readyOrder_nodup hp).sublist (List.take_sublist _ _)
  · obtain ⟨x, hx, ready⟩ := Plan.ready_of_mem_queue hp hi
    rw [Plan.stateOf_of_slot? hx, ready]
  · have him := (Plan.queueByLaw_getElem?_eq_some.1 hi).2
    have hjn := (Plan.queueByLaw_getElem?_eq_some.1 hj).2
    exact Plan.keyBefore_of_readyOrder_lt hp hmn him hjn hx hy

/-! ### Queue Read (R42) -/

/-- A queue entry's fields take 2, 1, 1, 4 and 1 bytes. -/
theorem queueEntryBytes_length (e : QueueEntry) : (queueEntryBytes e).length = 9 := rfl

theorem exec_queueRead {s : State} {p : Port} (ht : s.takes p .read) (n : Byte) :
    exec (.queueRead p n) s = .next (
      if n.toNat ≤ 64 then
        s.reply p 0x04 .ok (.queue s.dispatcher.queue.length s.plan.readySlots.length
          (s.queueEntries (if n.toNat = 0 then 64 else n.toNat)))
      else s.refuse p 0x04 .badValue) :=
  congrArg Host.Outcome.next (State.onPort_of_takes ht _)

/-- Where every index has a record, the entries name the indices in their order. -/
theorem Plan.map_slot_filterMap_queueEntry {p : Plan} {l : List Nat} (h : ∀ i ∈ l, ∃ x, p.slot? i = some x) :
    (l.filterMap p.queueEntry).map QueueEntry.slot = l := by
  induction l with
  | nil => rfl
  | cons i l ih =>
    obtain ⟨x, hx⟩ := h i List.mem_cons_self
    have entry : p.queueEntry i = some ⟨i, x.wall, x.course, x.designLeft, x.type⟩ := by simp [Plan.queueEntry, hx]
    rw [List.filterMap_cons_some entry, List.map_cons, ih fun j hj => h j (List.mem_cons_of_mem i hj)]

/-- An entry shows the record of its slot. -/
theorem State.record_of_mem_queueEntries {s : State} {n : Nat} {e : QueueEntry} (he : e ∈ s.queueEntries n) :
    ∃ x, s.plan.slot? e.slot = some x ∧ e = ⟨e.slot, x.wall, x.course, x.designLeft, x.type⟩ := by
  obtain ⟨i, _, entry⟩ := List.mem_filterMap.1 he
  obtain ⟨x, hx, rfl⟩ := Option.map_eq_some_iff.1 entry
  exact ⟨x, hx, rfl⟩

/-- By the queue law every queued slot has a record, so no entry is passed over. -/
theorem State.map_slot_queueEntries {s : State} (hs : tableWf s.plan.slots) (hq : s.queueLaw) (n : Nat) :
    (s.queueEntries n).map QueueEntry.slot = s.dispatcher.queue.take (min n 27) := by
  refine Plan.map_slot_filterMap_queueEntry fun i hi => ?_
  have queued : i ∈ s.plan.queueByLaw := hq ▸ List.mem_of_mem_take hi
  obtain ⟨x, hx, _⟩ := Plan.ready_of_mem_queue hs queued
  exact ⟨x, hx⟩

/-- Settles O9: the entries are those of the queue's front places. -/
theorem queueReadAnswers : Obligations.QueueReadAnswers := by
  refine ⟨queueEntryBytes_length, fun s p n ht => ⟨fun hn => ?_, fun hn =>
    ⟨s.queueEntries (if n.toNat = 0 then 64 else n.toNat), ?_, fun hs hq =>
      ⟨State.map_slot_queueEntries hs hq _, fun _ => State.record_of_mem_queueEntries⟩⟩⟩⟩
  · rw [exec_queueRead ht, if_neg (Nat.not_le.2 hn)]
  · rw [exec_queueRead ht, if_pos hn]
    rfl

/-! ### Re-judgement (R26, R27) -/

/-- A presentation writes the watches alone (R159). -/
theorem Events.presentAll_frame (l : SlotTable) (st : SlotState) (time : Option Nat) (e : Events) :
    e.presentAll l st time = { e with watches := (e.presentAll l st time).watches } := by
  induction l generalizing e with
  | nil => rfl
  | cons d l ih => exact ih (e.present d.1 d.2 st time)

section Judgement

variable {p : Plan} {st : Option Nat} {ids more : List Nat} {i : Nat} {x : Slot}

theorem SlotState.waiting_iff {a : SlotState} : a.waiting = true ↔ a = .planned ∨ a = .ready := by
  simp [SlotState.waiting]

/-- Conditions 2 to 7 of R26 decide the state of a Planned or Ready slot. -/
theorem Plan.judged_state (hx : x.state = .planned ∨ x.state = .ready) :
    (p.readyUnless st x → (p.judged st x).state = .ready)
      ∧ (¬ p.readyUnless st x → (p.judged st x).state = .planned) := by
  have conditions : p.readyConditions st x = true ↔ p.readyUnless st x := by
    rw [Plan.readyConditions_iff, and_iff_right (SlotState.waiting_iff.2 hx)]
  rw [Plan.judged, if_pos hx, ← conditions]
  exact ⟨fun h => if_pos h, fun h => if_neg h⟩

theorem Plan.judged_of_other_state (h1 : x.state ≠ .planned) (h2 : x.state ≠ .ready) : p.judged st x = x :=
  if_neg (not_or.2 ⟨h1, h2⟩)

/-- A cause changes a record's state alone, and none of a slot it does not name or that is neither Planned nor
Ready (R27). -/
theorem Plan.slot?_rejudged_of_some (hx : p.slot? i = some x) :
    ∃ a, (p.rejudged st ids).slot? i = some { x with state := a }
      ∧ (i ∈ ids → x.state = .planned ∨ x.state = .ready →
          (p.readyUnless st x → a = .ready) ∧ (¬ p.readyUnless st x → a = .planned))
      ∧ (i ∉ ids ∨ (x.state ≠ .planned ∧ x.state ≠ .ready) → a = x.state) := by
  by_cases named : i ∈ ids
  · refine ⟨(p.judged st x).state, ?_, fun _ => Plan.judged_state, ?_⟩
    · rw [Plan.slot?_rejudged, hx, ← Plan.judged_eq]
      simp [named]
    · rintro (absent | ⟨h1, h2⟩)
      · exact absurd named absent
      · rw [Plan.judged_of_other_state h1 h2]
  · refine ⟨x.state, ?_, fun h => absurd h named, fun _ => rfl⟩
    rw [Plan.slot?_rejudged_of_not_mem p st named, hx]

theorem Plan.slot?_rejudged_eq_none : (p.rejudged st ids).slot? i = none ↔ p.slot? i = none := by
  rw [Plan.slot?_rejudged, Option.map_eq_none_iff]

theorem Plan.turnsReady_iff : p.turnsReady st x = true ↔ x.state = .planned ∧ p.readyUnless st x := by
  rw [Plan.turnsReady, Bool.and_eq_true, beq_iff_eq, Plan.readyConditions_iff]
  refine and_congr_right fun planned => ?_
  rw [and_iff_right (SlotState.waiting_iff.2 (.inl planned))]

theorem Plan.mem_newlyReady (hp : tableWf p.slots) : (i, x) ∈ p.newlyReady st ids ↔
    p.slot? i = some x ∧ i ∈ ids ∧ x.state = .planned ∧ p.readyUnless st x := by
  rw [Plan.newlyReady, List.mem_filter, Plan.mem_slots_iff hp, Bool.and_eq_true, List.contains_iff_mem,
    Plan.turnsReady_iff]

theorem Plan.newlyReady_ascending (hp : tableWf p.slots) (st : Option Nat) (ids : List Nat) :
    ((p.newlyReady st ids).map Prod.fst).Pairwise (· < ·) :=
  tableSorted.sublist hp.1 List.filter_sublist

/-- A cause reads its list for the slots it names, not for their order or number. -/
theorem State.afterJudging_congr (s : State) (h : ∀ i, i ∈ more ↔ i ∈ ids) :
    s.afterJudging more = s.afterJudging ids := by
  have named (i : Nat) : more.contains i = ids.contains i := by
    rw [Bool.eq_iff_iff, List.contains_iff_mem, List.contains_iff_mem, h]
  simp only [State.afterJudging, Plan.rejudged, Plan.newlyReady, named]

end Judgement

/-- Settles O23: a cause is one simultaneous judgement of the slots it names. -/
theorem rejudgementFollowsTheConditions : Obligations.RejudgementFollowsTheConditions := by
  intro s ids hs
  rw [State.rejudge_eq hs]
  refine ⟨rfl, ?_, fun i => Plan.slot?_rejudged_eq_none, fun i x hx => Plan.slot?_rejudged_of_some hx,
    ⟨s.plan.newlyReady s.dispatcher.station ids, Plan.newlyReady_ascending hs _ _,
      fun i x => Plan.mem_newlyReady hs, rfl⟩, fun more h => ?_⟩
  · exact congrArg (fun e => { s.afterJudging ids with events := e }) (Events.presentAll_frame _ _ _ s.events)
  · rw [State.rejudge_eq hs, State.afterJudging_congr s h]

end Sys2Proof.Machine

/-! PROOFS of claims and the boom line (spec/03): Claim (R48 to R51), the tests every report meets and Cut Done (R52,
R53), Laid (R58, R59, R89 to R93), Reject (R60, R61), Hold, Release, Bin Status and ESTOP (R64, R65, R67), and the
reads that return one item as it stands (R68, R108, R116, R125, R156). -/

namespace Sys2Proof.Machine

open Sys2Proof

/-! ### Entering a state (R159) -/

/-- A watch sees a slot's wall and course alone, so an entry that leaves them is presented as the record stood. -/
theorem State.enter_in_place {s : State} {i : Nat} {x : Slot} (hx : s.plan.slot? i = some x) (st : SlotState)
    {f : Slot → Slot} (hw : (f x).wall = x.wall) (hc : (f x).course = x.course) :
    s.enter i st f = { s with
      plan := s.plan.modifySlot i fun y => { f y with state := st }
      events := s.events.present i x st s.clock } := by
  rw [State.enter_of_slot? hx, Events.present_congr hw hc]

/-! ### A judgement of a slot that does not wait (R27) -/

/-- A judgement leaves a slot that is neither Planned nor Ready where it stands (R27). -/
theorem Plan.stateOf_rejudged_of_not_waiting {p : Plan} {i : Nat} {x : Slot} (hx : p.slot? i = some x)
    (h : x.state.waiting = false) (st : Option Nat) (ids : List Nat) : (p.rejudged st ids).stateOf i = x.state := by
  have stays : (p.rejudged st ids).slot? i = some x := by
    rw [Plan.slot?_rejudged, hx, Option.map_some, Plan.judged_of_not_waiting h, ite_self]
  rw [Plan.stateOf_of_slot? stays]

/-! ### Claim: the conditions of R48 -/

theorem exec_claim_of_refusal {s : State} {st : Status} {b : Body} (h : s.claimRefusal = some (st, b)) :
    exec .claim s = .next (s.reply .M 0x51 st b) := by
  simp only [exec, execClaim, h]

theorem exec_claim_of_goesOn {s : State} (h : s.claimGoesOn) : exec .claim s = .next (s.claimScan s.claimFuel 0) := by
  simp only [exec, execClaim, State.claimRefusal_of_goesOn h]

/-- The last response of a Claim that went on: a brick, AllBlocked or QueueEmpty (R50, R51). -/
def State.EndsClaim (r : State) : Prop :=
  ∃ t : State, (∃ b, r = t.reply .M 0x51 .ok (.claim b))
    ∨ r = t.reply .M 0x51 .noBrick (.noBrick .allBlocked)
    ∨ r = t.reply .M 0x51 .noBrick (.noBrick .queueEmpty)

theorem State.endsClaim_claimEnds (s : State) : s.claimEnds.EndsClaim := by
  refine ⟨s, .inr ?_⟩
  by_cases empty : s.dispatcher.queue.isEmpty = true
  · exact .inr (by rw [State.claimEnds, if_pos empty])
  · exact .inl (by rw [State.claimEnds, if_neg empty])

theorem State.endsClaim_takeBrick (s : State) (i : Nat) (x : Slot) (r : ClaimResult) : (s.takeBrick i x r).EndsClaim :=
  ⟨_, .inl ⟨_, rfl⟩⟩

/-- However many entries a scan passes over or faults, it ends in one of the three ways. -/
theorem State.endsClaim_claimScan (fuel pos : Nat) (s : State) : (s.claimScan fuel pos).EndsClaim := by
  fun_induction State.claimScan fuel pos s with
  | case1 pos s => exact s.endsClaim_claimEnds
  | case2 fuel pos s atEnd => exact s.endsClaim_claimEnds
  | case3 fuel pos s i entry noSlot ih => exact ih
  | case4 fuel pos s i entry x slot eligible r faults ih => exact ih
  | case5 fuel pos s i entry x slot eligible r computes => exact s.endsClaim_takeBrick i x r
  | case6 fuel pos s i entry x slot notEligible ih => exact ih

/-- Settles O26: each condition of R48 where those before it fail, and the scan where all fail. -/
theorem claimRefusals : Obligations.ClaimRefusals := by
  refine ⟨rfl, fun s => ⟨fun clock => ?_, fun clock => ⟨fun station => ?_, fun station => ⟨fun estop => ?_, fun estop =>
    ⟨fun hold => ?_, fun hold => ⟨fun stop => ?_, fun stop => ⟨fun glue => ?_, fun glue => ⟨fun full => ?_,
      fun room queue => ?_⟩⟩⟩⟩⟩⟩, fun goesOn => ?_⟩⟩
  · exact exec_claim_of_refusal (by simp [State.claimRefusal, clock])
  · exact exec_claim_of_refusal (by simp [State.claimRefusal, clock, station])
  · exact exec_claim_of_refusal (by simp [State.claimRefusal, clock, station, estop])
  · exact exec_claim_of_refusal (by simp [State.claimRefusal, clock, station, estop, hold])
  · exact exec_claim_of_refusal (by simp [State.claimRefusal, clock, station, estop, hold, stop])
  · exact exec_claim_of_refusal (by simp [State.claimRefusal, clock, station, estop, hold, stop, glue])
  · exact exec_claim_of_refusal
      (by simp [State.claimRefusal, clock, station, estop, hold, stop, glue, Config.lineCapacity, full])
  · exact exec_claim_of_refusal
      (by simp [State.claimRefusal, clock, station, estop, hold, stop, glue, Config.lineCapacity, room, queue])
  · simp only [exec_claim_of_goesOn goesOn, Host.Outcome.next.injEq]
    exact s.endsClaim_claimScan s.claimFuel 0

/-! ### Claim: the brick taken (R49, R51) -/

/-- The scan comes past entries that may not be taken to the first one that may (R49). -/
theorem State.claimScan_reaches {s : State} {n i : Nat} {x : Slot} {r : ClaimResult}
    (entry : s.dispatcher.queue[n]? = some i) (hx : s.plan.slot? i = some x) (may : s.mayBeTaken x)
    (computes : s.plan.claimTime x = .ok r)
    (before : ∀ m < n, ∀ j y, s.dispatcher.queue[m]? = some j → s.plan.slot? j = some y → ¬ s.mayBeTaken y) :
    s.claimScan s.claimFuel 0 = s.takeBrick i x r := by
  have hn : n < s.dispatcher.queue.length := (List.getElem?_eq_some_iff.1 entry).1
  obtain ⟨fuel, enough⟩ : ∃ fuel, s.claimFuel = fuel + 1 + n :=
    ⟨s.claimFuel - 1 - n, by unfold State.claimFuel; omega⟩
  have passed : s.claimScan (fuel + 1 + n) 0 = s.claimScan (fuel + 1) (0 + n) := by
    refine s.claimScan_pass (fuel + 1) 0 n fun m _ hm => ?_
    have hmn : m < n := by omega
    have listed := List.getElem?_eq_getElem (Nat.lt_trans hmn hn)
    exact ⟨_, listed, fun y hy =>
      Bool.eq_false_of_not_eq_true (mt (s.eligible_iff y).1 (before m hmn _ y listed hy))⟩
  rw [enough, passed, Nat.zero_add, State.claimScan]
  simp only [entry, hx, (s.eligible_iff x).2 may, computes, if_true]

/-- The taking of a brick, whole: the carrier at the tail, the slot Claimed and presented, its left neighbour
re-judged (R51, R29). -/
theorem State.takeBrick_eq {s : State} {i : Nat} {x : Slot} (hs : tableWf s.plan.slots) (hx : s.plan.slot? i = some x)
    (r : ClaimResult) :
    s.takeBrick i x r = (({ s with
      line := s.line ++ [claimCarrier s.freeTag i x r]
      plan := s.plan.modifySlot i fun y => { y with state := .claimed, tag := some s.freeTag }
      events := s.events.present i x .claimed s.clock } : State).afterJudging x.left.toList).reply .M 0x51 .ok
        (.claim (claimBody s.plan x (claimCarrier s.freeTag i x r))) := by
  have entered := State.enter_in_place (s := { s with line := s.line ++ [claimCarrier s.freeTag i x r] }) hx .claimed
    (f := fun y => { y with tag := some s.freeTag }) rfl rfl
  have form : tableWf (s.plan.modifySlot i fun y => { y with state := .claimed, tag := some s.freeTag }).slots :=
    Plan.tableWf_modifySlot hs fun _ _ => SlotState.noConfusion
  rw [← State.rejudge_eq form, ← entered]
  rfl

/-- Settles O27: the entry the scan comes to is taken, with the lowest tag no carrier holds. -/
theorem claimTakesABrick : Obligations.ClaimTakesABrick := by
  intro s n i x r hs goesOn entry hx may computes before
  have ⟨_, _, _, _, _, _, room, _⟩ := goesOn
  refine ⟨s.freeTag, claimCarrier s.freeTag i x r, s.freeTag_lowest room, ?_, ?_⟩
  · rw [claimCarrier]
    cases r.closer <;> rfl
  · rw [exec_claim_of_goesOn goesOn, State.claimScan_reaches entry hx may computes before, State.takeBrick_eq hs hx]
    rfl

/-! ### The tests every report meets (R52) -/

section Reports

variable {s : State} {tag : Byte} {c : Carrier} {f : LaidFields}

theorem State.whenFront_front (h : s.line.head? = some c) (code : Byte) (take : State → Result) :
    s.whenFront code c take = take s := by
  rw [State.whenFront, if_pos (State.isFront_head h)]

theorem State.whenFront_notFront (h : ∀ d, s.line.head? = some d → d.tag ≠ c.tag) (code : Byte)
    (take : State → Result) : s.whenFront code c take = .next (s.refuse .M code .notFront) := by
  have behind : ¬ s.isFront c.tag = true := fun front => by
    obtain ⟨d, hd, same⟩ := State.isFront_iff.1 front
    exact h d hd same
  rw [State.whenFront, if_neg behind]

/-- Test 2 of R52, after the tag's. -/
theorem exec_laid_of_not_inRange (hc : s.carrier? tag.toNat = some c) (hf : ¬ laidInRange f = true) :
    exec (.laid tag f) s = .next (s.refuse .M 0x55 .badValue) := by
  simp only [exec, execLaid, State.withCarrier_some hc, if_neg hf]

/-- Cut Done from each stage (R53). -/
theorem exec_cutDone (hc : s.carrier? tag.toNat = some c) :
    exec (.cutDone tag) s = .next (
      if c.stage = .picked ∧ c.cutLength ≠ none then
        ({ s with line := lineWith s.line c.tag fun d => { d with stage := .cut } } : State).reply .M 0x52 .ok
          (.cutDone c.tag .cut)
      else s.refuse .M 0x52 .outOfStep) := by
  simp only [exec, execCutDone, State.withCarrier_some hc, Option.isSome_iff_ne_none, State.modifyCarrier_eq]
  split <;> rfl

end Reports

/-- Settles O29: the tag, the figures of a Laid report, the front, and Cut Done's own stage. -/
theorem reportTestsAndCutDone : Obligations.ReportTestsAndCutDone := by
  refine fun s tag => ⟨fun absent => ?_, fun present f => ?_, fun c hc => ⟨fun picked cut => ?_, fun other => ?_⟩⟩
  · simp only [exec, execCutDone, execGlued, execTargetRequest, execLaid, execReject,
      State.withCarrier_none (State.carrier?_eq_none absent), implies_true, and_self]
  · obtain ⟨c, hc⟩ := State.exists_carrier? present
    refine ⟨fun beyond => exec_laid_of_not_inRange hc ?_, fun behind => ?_⟩
    · rw [laidInRange_iff]
      omega
    · rw [← (State.carrier?_some hc).2] at behind
      refine ⟨?_, fun hl hr htl htr => ?_⟩
      · simp only [exec, execTargetRequest, State.withCarrier_some hc, State.whenFront_notFront behind]
      · simp only [exec, execLaid, State.withCarrier_some hc, (laidInRange_iff f).2 ⟨hl, hr, htl, htr⟩, if_true,
          State.whenFront_notFront behind]
  · rw [exec_cutDone hc, if_pos ⟨picked, cut⟩]
  · rw [exec_cutDone hc, if_neg (by tauto)]

/-! ### Laid: the judgement (R90, R91) -/

theorem deviations_eq (g : Target) (a : AsLaid) :
    deviations g a = ⟨a.topLeft - g.top, a.topRight - g.top, a.left - g.left, a.right - (g.left + g.length)⟩ := by
  simp [deviations]

theorem Deviations.within_iff (d : Deviations) (w : WallParams) : d.within w = true ↔
    d.topLeft.natAbs ≤ w.heightTol ∧ d.topRight.natAbs ≤ w.heightTol
      ∧ d.left.natAbs ≤ w.positionTol ∧ d.right.natAbs ≤ w.positionTol := by
  simp only [Deviations.within, Bool.and_eq_true, decide_eq_true_eq, and_assoc]

theorem verdict_of_within {d : Deviations} {w : WallParams} (h : d.within w = true) : verdict d w = .set := if_pos h

theorem verdict_of_not_within {d : Deviations} {w : WallParams} (h : ¬ d.within w = true) :
    verdict d w = .suspect := if_neg h

/-! ### Laid: the consequences (R92, R93) -/

section Laying

variable {s : State} {c : Carrier} {x : Slot}

/-- A brick laid changes no slot's supports. -/
theorem followers_afterLaying (st : SlotState) (a : AsLaid) (late : Bool) :
    (s.afterLaying c x st a late).plan.followers c.slot = s.plan.followers c.slot :=
  Plan.followers_modifySlot _ _ _ _ fun _ => rfl

theorem State.laidAsSet_eq (hs : tableWf s.plan.slots) (hx : s.plan.slot? c.slot = some x) (a : AsLaid) :
    s.laidAsSet c x a = ((s.afterLaying c x .set a false).afterJudging
      (s.plan.followers c.slot ++ (x.left.toList ++ x.right.toList))).afterCompletion x.wall := by
  rw [State.laidAsSet, State.layBrick_eq s c x .set a false hx, State.completionTest_eq, State.rejudgeAroundSet,
    followers_afterLaying, State.rejudge_eq (tableWf_afterLaying hs SlotState.noConfusion)]
  rfl

theorem State.laidAsSuspect_eq (hs : tableWf s.plan.slots) (hx : s.plan.slot? c.slot = some x) (a : AsLaid)
    (late : Bool) :
    s.laidAsSuspect c x a late = ((s.afterLaying c x .suspect a late).afterSuspect).afterJudging
      (x.left.toList ++ x.right.toList) := by
  rw [State.laidAsSuspect, State.layBrick_eq s c x .suspect a late hx]
  exact State.rejudge_eq (s := (s.afterLaying c x .suspect a late).afterSuspect)
    (tableWf_afterLaying hs SlotState.noConfusion) _

end Laying

/-! ### Laid from the front carrier, by its stage (R58, R59) -/

section FrontLaid

variable {s : State} {tag : Byte} {f : LaidFields} {c : Carrier} {x : Slot} {now : Nat}

theorem exec_laid_outOfStep (front : s.line.head? = some c) (ht : c.tag = tag.toNat) (hf : laidInRange f = true)
    (stage : ¬ (c.stage = .targeted ∨ (c.stage = .expired ∧ c.targeted = true))) :
    exec (.laid tag f) s = .next (s.refuse .M 0x55 .outOfStep) := by
  simp only [exec, execLaid, State.withCarrier_some (State.carrier?_head front ht), if_pos hf,
    State.whenFront_front front, if_neg stage]

theorem exec_laid_late (front : s.line.head? = some c) (ht : c.tag = tag.toNat) (hf : laidInRange f = true)
    (hx : s.plan.slot? c.slot = some x) (clock : s.clock = some now) (expired : c.stage = .expired)
    (targeted : c.targeted = true) :
    exec (.laid tag f) s = .next ((s.laidAsSuspect c x (laidPartOf f now) true).refuse .M 0x55 .late) := by
  simp only [exec, execLaid, State.withCarrier_some (State.carrier?_head front ht), if_pos hf,
    State.whenFront_front front, if_pos (Or.inr (And.intro expired targeted)), hx, clock, if_pos expired]

theorem exec_laid_targeted {g : Target} {d : Deviations} (front : s.line.head? = some c) (ht : c.tag = tag.toNat)
    (hf : laidInRange f = true) (hx : s.plan.slot? c.slot = some x) (clock : s.clock = some now)
    (targeted : c.stage = .targeted) (hg : x.target = some g) (hd : d = deviations g (laidPartOf f now)) :
    exec (.laid tag f) s = .next (
      if d.within (s.plan.wall x.wall).params then
        (s.laidAsSet c x (laidPartOf f now)).reply .M 0x55 .ok (.laid c.tag .set d)
      else (s.laidAsSuspect c x (laidPartOf f now) false).reply .M 0x55 .ok (.laid c.tag .suspect d)) := by
  have notExpired : ¬ c.stage = .expired := by simp [targeted]
  simp only [exec, execLaid, State.withCarrier_some (State.carrier?_head front ht), if_pos hf,
    State.whenFront_front front, if_pos (Or.inl targeted), hx, clock, if_neg notExpired, hg, ← hd]
  by_cases within : d.within (s.plan.wall x.wall).params = true
  · rw [verdict_of_within within, if_pos within]
  · rw [verdict_of_not_within within, if_neg within]

end FrontLaid

/-- Settles O32: the stage of the front carrier, then the verdict, with the consequences as one update each. -/
theorem laidIsJudged : Obligations.LaidIsJudged := by
  intro s tag f c front ht hl hr htl htr
  have hf := (laidInRange_iff f).2 ⟨hl, hr, htl, htr⟩
  refine ⟨fun stage => exec_laid_outOfStep front ht hf ?_, ?_⟩
  · rcases stage with h | h | h | h | ⟨h, untargeted⟩
    all_goals simp [h]
    exact untargeted
  rintro x now _ hs hx clock rfl
  refine ⟨fun expired targeted => ?_, fun g d targeted hg hd => ?_⟩
  · rw [exec_laid_late front ht hf hx clock expired targeted, State.laidAsSuspect_eq hs hx]
    rfl
  · rw [← deviations_eq] at hd
    rw [exec_laid_targeted front ht hf hx clock targeted hg hd, ← Deviations.within_iff]
    refine ⟨fun within => ?_, fun beyond => ?_⟩
    · rw [if_pos within, State.laidAsSet_eq hs hx]
      rfl
    · rw [if_neg beyond, State.laidAsSuspect_eq hs hx]
      rfl

/-! ### Reject (R60, R61) -/

section Reject

variable {s : State} {tag reason : Byte} {c : Carrier} {x : Slot}

/-- The carrier leaves, and the slot and its left neighbour are judged as one cause (R30). -/
theorem exec_reject {u : State} (hc : s.carrier? tag.toNat = some c) (hx : s.plan.slot? c.slot = some x)
    (dropped : s.dropCarrier c = u) (form : tableWf u.plan.slots) :
    exec (.reject tag reason) s = .next ((u.afterJudging (c.slot :: x.left.toList)).reply .M 0x56 .ok
      (.rejected c.tag reason.toNat ((u.afterJudging (c.slot :: x.left.toList)).plan.stateOf c.slot))) := by
  simp only [exec, execReject, State.withCarrier_some hc, hx, dropped, State.rejudge_eq form]

theorem State.dropCarrier_of_not_faulted (h : c.stage ≠ .faulted) :
    s.dropCarrier c = { s with
      line := lineWithout s.line c.tag
      plan := s.plan.modifySlot c.slot fun y =>
        { y with state := .planned, tag := none, target := none, openLeft := false, corrected := false } } := by
  rw [State.dropCarrier, if_neg h, State.returnToPlanned, State.removeCarrier_eq]
  rfl

theorem State.dropCarrier_of_faulted (hx : s.plan.slot? c.slot = some x) (h : c.stage = .faulted) :
    s.dropCarrier c = { s with
      line := lineWithout s.line c.tag
      plan := s.plan.modifySlot c.slot fun y =>
        { y with
          state := .fault, tag := none, target := none, openLeft := false, corrected := false
          faultReason := some .drift }
      events := { s.events.present c.slot x .fault s.clock with planFault := true } } := by
  have stays : (s.removeCarrier c.tag).plan.slot? c.slot = some x := hx
  rw [State.dropCarrier, if_pos h, State.returnToFault, State.enter_in_place stays .fault (by rfl) (by rfl),
    State.removeCarrier_eq]
  rfl

end Reject

/-- Settles O33: what the carrier leaves behind, then one judgement; a slot in Fault keeps its state through it. -/
theorem rejectReturnsTheSlot : Obligations.RejectReturnsTheSlot := by
  refine fun s tag reason c x hs hc hx => ⟨fun h => ⟨_, rfl, ?_⟩, fun h => ?_⟩
  · exact exec_reject hc hx (State.dropCarrier_of_not_faulted h)
      (Plan.tableWf_modifySlot hs fun _ _ => SlotState.noConfusion)
  · rw [exec_reject hc hx (State.dropCarrier_of_faulted hx h)
      (Plan.tableWf_modifySlot hs fun _ _ => SlotState.noConfusion)]
    have inFault := s.plan.slot?_modifySlot_self c.slot fun y =>
      { y with
        state := .fault, tag := none, target := none, openLeft := false, corrected := false
        faultReason := some .drift }
    rw [hx, Option.map_some] at inFault
    congr 3
    exact Plan.stateOf_rejudged_of_not_waiting inFault rfl _ _

/-! ### Hold, Release, Bin Status, ESTOP (R64, R65, R67) -/

/-- HELD is the hold request over an empty line (R66). -/
theorem State.held_eq (s : State) : s.held = (s.dispatcher.hold && decide (s.line = [])) := by
  simp only [State.held, ← List.isEmpty_iff, Bool.decide_eq_true]

/-- Settles O20: the answer to Hold shows HELD, which is asserted at once where the line is empty. -/
theorem holdReleaseBinsAndEstop : Obligations.HoldReleaseBinsAndEstop := by
  refine ⟨fun s ht => ⟨?_, ?_⟩, fun s => ⟨fun empty => rfl, fun level => rfl⟩⟩
  · simp only [exec, execHold, State.onPlanPort_of_takes ht, State.requestHold, State.held_eq, Bool.true_and]
  · simp only [exec, execRelease, State.onPlanPort_of_takes ht, State.requestHold, State.held_eq, Bool.false_and]

/-! ### The reads that return one item (R68, R108, R116, R125, R156) -/

/-- Settles O8: each read in the order its port takes it. -/
theorem plainReads : Obligations.PlainReads := by
  refine ⟨fun s p ht => ⟨?_, ?_, ?_, ?_⟩, fun s ht => ?_⟩
  · simp only [exec, execLineRead, State.onPort_of_takes ht]
  · simp only [exec, execReadTime, State.onPort_of_takes ht]
  · simp only [exec, execConditionsRead, State.onPort_of_takes ht]
  · simp only [exec, execOptionRead, State.onPort_of_takes ht]
  · simp only [exec, execAuthorityRead, State.onPlanPort_of_takes ht]

end Sys2Proof.Machine

/-! PROOFS of the placement arithmetic (spec/04): the support ends and the top (R73, R74), the length of a closer (R81
to R83) and the order of the claim-time computation (R75). -/

namespace Sys2Proof.Machine

open Sys2Proof

/-! ### Clamping (R74, R77) -/

section Clamping

variable {lo hi x : Nat}

theorem clampBand_of_below (h : x < lo) : clampBand lo hi x = lo := if_pos h

/-- The band is not empty, so that a figure above it is not below it too. -/
theorem clampBand_of_above (band : lo ≤ hi) (h : hi < x) : clampBand lo hi x = hi := by
  rw [clampBand, if_neg (by omega), if_pos h]

theorem clampBand_of_inside (hlo : lo ≤ x) (hhi : x ≤ hi) : clampBand lo hi x = x := by
  rw [clampBand, if_neg (by omega), if_neg (by omega)]

theorem clampBand_mem (band : lo ≤ hi) : lo ≤ clampBand lo hi x ∧ clampBand lo hi x ≤ hi := by
  unfold clampBand
  split_ifs <;> omega

end Clamping

/-! ### The support ends (R73) -/

section SupportEnds

variable {p : Plan} {x : Slot}

theorem Plan.supportEnds_of_no_supports (h : x.supports = []) :
    p.supportEnds x = [(p.wall x.wall).params.base, (p.wall x.wall).params.base] := by
  rw [Plan.supportEnds, h, List.isEmpty_nil, if_pos rfl]

/-- Over supports, the ends are the tops of the as-laid parts that there are. -/
theorem Plan.supportEnds_of_supports (h : x.supports ≠ []) :
    p.supportEnds x = (x.supports.filterMap fun j => (p.slot? j).bind Slot.asLaid).flatMap
      fun a => [a.topLeft, a.topRight] := by
  rw [Plan.supportEnds, if_neg (by simpa using h), List.filterMap_eq_flatMap_toList, List.flatMap_assoc]
  congr 1
  funext j
  cases (p.slot? j).bind Slot.asLaid with
  | none => rfl
  | some a => rfl

/-- The largest of the heights, whatever their order. -/
theorem maxEnd_eq {ends : List Nat} {m : Nat} (mem : m ∈ ends) (bound : ∀ e ∈ ends, e ≤ m) : maxEnd ends = m := by
  rw [maxEnd, List.foldl_max, List.max?_eq_some_iff.2 ⟨mem, bound⟩]
  exact Nat.zero_max m

/-- The smallest of the heights, whatever their order; the fold starts from the first of them. -/
theorem minEnd_eq {ends : List Nat} {m : Nat} (mem : m ∈ ends) (bound : ∀ e ∈ ends, m ≤ e) : minEnd ends = m := by
  rw [minEnd, List.foldl_min, List.min?_eq_some_iff.2 ⟨mem, bound⟩]
  cases ends with
  | nil => cases mem
  | cons e es => exact Nat.min_eq_right (bound e List.mem_cons_self)

end SupportEnds

/-! ### The top (R74) -/

section Top

variable {p : Plan} {x : Slot} {lo hi : Nat}

theorem Plan.claimTop_of_empty_band (band : p.topBand x = (lo, hi)) (h : hi < lo) :
    p.claimTop x = .error .supportStep := by
  simp only [Plan.claimTop, band, if_pos h]

theorem Plan.claimTop_of_band (band : p.topBand x = (lo, hi)) (h : lo ≤ hi) :
    p.claimTop x = .ok (clampBand lo hi (p.designTop x)) := by
  simp only [Plan.claimTop, band, if_neg (Nat.not_lt.2 h)]

end Top

/-- Settles O35: the band stands on the largest and the smallest end, so a top inside it has its bed over every end. -/
theorem topIsHeldInTheHeightBand : Obligations.TopIsHeldInTheHeightBand := by
  refine ⟨fun p x => ⟨Plan.supportEnds_of_no_supports, fun parts supports laid => ?_⟩, ?_⟩
  · have theParts : (x.supports.filterMap fun j => (p.slot? j).bind Slot.asLaid) = parts := by
      simpa [List.filterMap_map, Function.comp_def] using congrArg (List.filterMap id) laid
    rw [Plan.supportEnds_of_supports supports, theParts]
  rintro p x maxTop minTop lo hi maxMem minMem bounds rfl rfl
  have band : p.topBand x = (maxTop + (p.brickType x.type).height + (p.wall x.wall).params.bedMin,
      minTop + (p.brickType x.type).height + (p.wall x.wall).params.bedMax) := by
    rw [Plan.topBand, maxEnd_eq maxMem fun e he => (bounds e he).2, minEnd_eq minMem fun e he => (bounds e he).1]
  refine ⟨Plan.claimTop_of_empty_band band, fun h => ⟨_, Plan.claimTop_of_band band h, clampBand_of_below,
    clampBand_of_above h, clampBand_of_inside, fun e he => ?_⟩⟩
  have ⟨above, below⟩ := clampBand_mem (x := p.designTop x) h
  have ⟨minLe, leMax⟩ := bounds e he
  omega

/-! ### The length of a closer (R81, R82) -/

section CloserLength

variable {p : Plan} {x : Slot} {l r n : Nat} {raw : Int}

theorem Plan.closerLength_of_negative (hraw : raw = (r : Int) - (p.wall x.wall).params.jointNominal - l)
    (h : raw < 0) : p.closerLength x l r = .error .gapNarrow := by
  simp only [Plan.closerLength, ← hraw, if_pos h]

/-- With the raw gap rounded down to `n`, the checks of R82 in their order. -/
theorem Plan.closerLength_of_rounded (hraw : raw = (r : Int) - (p.wall x.wall).params.jointNominal - l)
    (nonneg : 0 ≤ raw) (five : n % 5 = 0) (le : (n : Int) ≤ raw) (lt : raw < n + 5) :
    p.closerLength x l r =
      if (p.brickType x.type).length < n then .error .gapWide
      else if n < (p.brickType x.type).minCut then .error .gapNarrow
      else if n < (p.brickType x.type).length ∧ (p.brickType x.type).cuttable = false then .error .notCuttable
      else .ok n := by
  have rounded : raw.toNat - raw.toNat % 5 = n := by omega
  simp only [Plan.closerLength, ← hraw, if_neg (Int.not_lt.2 nonneg), rounded]

end CloserLength

/-! ### The claim-time computation, part by part (R75) -/

section ClaimTime

variable {p : Plan} {x : Slot} {t l n : Nat} {a : AsLaid} {e : FaultReason}

theorem Plan.claimTime_of_claimTop_error (top : p.claimTop x = .error e) : p.claimTime x = .error e := by
  simp only [Plan.claimTime, top]

theorem Plan.claimTime_of_no_closer (top : p.claimTop x = .ok t) (right : p.laidPart x.right = none) :
    p.claimTime x = .ok ⟨t, none⟩ := by
  simp only [Plan.claimTime, top, right]

theorem Plan.claimTime_of_leftEnd_error (top : p.claimTop x = .ok t) (right : p.laidPart x.right = some a)
    (left : p.leftEnd x = .error e) : p.claimTime x = .error e := by
  simp only [Plan.claimTime, top, right, left]

theorem Plan.claimTime_of_closerLength_error (top : p.claimTop x = .ok t) (right : p.laidPart x.right = some a)
    (left : p.leftEnd x = .ok l) (length : p.closerLength x l a.left = .error e) : p.claimTime x = .error e := by
  simp only [Plan.claimTime, top, right, left, length]

theorem Plan.claimTime_of_closer (top : p.claimTop x = .ok t) (right : p.laidPart x.right = some a)
    (left : p.leftEnd x = .ok l) (length : p.closerLength x l a.left = .ok n) :
    p.claimTime x = .ok ⟨t, some (l, n)⟩ := by
  simp only [Plan.claimTime, top, right, left, length]

end ClaimTime

/-- Settles O37: the checks on the rounded gap in their order; the right joint is the joint nominal and the remainder
that the rounding took off, at most 4; then one part of the claim-time computation after the other. -/
theorem closerLengthFitsTheGap : Obligations.CloserLengthFitsTheGap := by
  refine ⟨fun p x l r raw hraw => ⟨Plan.closerLength_of_negative hraw, fun n nonneg five le lt => ?_⟩,
    fun p x => ⟨fun e => Plan.claimTime_of_claimTop_error, fun t top => ⟨fun unlaid => ?_, ?_⟩⟩⟩
  · rw [Plan.closerLength_of_rounded hraw nonneg five le lt]
    refine ⟨fun wide => if_pos wide, fun fits short => ?_, fun shorter long whole => ?_, fun fits long cut => ?_⟩
    · rw [if_neg (Nat.not_lt.2 fits), if_pos short]
    · rw [if_neg (Nat.lt_asymm shorter), if_neg (Nat.not_lt.2 long), if_pos ⟨shorter, whole⟩]
    · have cuttable : ¬ (n < (p.brickType x.type).length ∧ (p.brickType x.type).cuttable = false) := by
        rintro ⟨shorter, whole⟩
        rcases cut with full | cuts
        · omega
        · exact Bool.noConfusion (whole.symm.trans cuts)
      rw [if_neg (Nat.not_lt.2 fits), if_neg (Nat.not_lt.2 long), if_neg cuttable]
      refine ⟨rfl, by omega, by omega, by omega, fun ranges => ?_⟩
      obtain ⟨-, -, -, -, -, -, -, -, -, minLe, leMax⟩ := ranges
      omega
  · exact Plan.claimTime_of_no_closer top (Plan.laidPart_eq_none unlaid)
  · intro j y a link hy laid part
    have right := Plan.laidPart_eq_some link hy laid part
    exact ⟨fun e => Plan.claimTime_of_leftEnd_error top right, fun l left =>
      ⟨fun e => Plan.claimTime_of_closerLength_error top right left, fun n => Plan.claimTime_of_closer top right left⟩⟩

end Sys2Proof.Machine

/-! PROOFS of the engineer's two answers to a Suspect slot (spec/05): Accept (R97, R98) and Lift (R99 to R101). -/

namespace Sys2Proof.Machine

open Sys2Proof

section AcceptAndLift

variable {s u : State} {a : SlotAddress} {i : Nat} {x : Slot}

/-! ### The tests of Accept and Lift (R97, R99) -/

theorem exec_acceptOrLift_of_unresolved (ht : s.takes .P .planShaping) (unresolved : s.resolve .P a = none) :
    exec (.accept a) s = .next (s.refuse .P 0x37 .badAddress)
      ∧ exec (.lift a) s = .next (s.refuse .P 0x38 .badAddress) := by
  simp only [exec, execAccept, execLift, State.onPlanPort_of_takes ht, State.withSlot_unresolved unresolved, and_self]

/-- An Empty slot and one in a state other than Suspect are refused alike. -/
theorem exec_acceptOrLift_of_not_suspect (ht : s.takes .P .planShaping) (hi : s.resolve .P a = some i)
    (other : s.plan.stateOf i ≠ .suspect) :
    exec (.accept a) s = .next ((s.setCursor .P i).refuse .P 0x37 .badState)
      ∧ exec (.lift a) s = .next ((s.setCursor .P i).refuse .P 0x38 .badState) := by
  cases hx : s.plan.slot? i with
  | none =>
    simp only [exec, execAccept, execLift, State.onPlanPort_of_takes ht, State.withSlot_empty hi hx, and_self]
  | some x =>
    rw [Plan.stateOf_of_slot? hx] at other
    simp only [exec, execAccept, execLift, State.onPlanPort_of_takes ht, State.withSlot_some hi hx, if_pos other,
      and_self]

theorem exec_accept_of_suspect (ht : s.takes .P .planShaping) (hi : s.resolve .P a = some i)
    (hx : s.plan.slot? i = some x) (suspect : x.state = .suspect) {t : State}
    (accepted : ((s.setCursor .P i).enter i .set id).rejudgeAroundSet i x = t) :
    exec (.accept a) s = .next ((t.completionTest x.wall).reply .P 0x37 .ok
      (.accepted .set (t.plan.allSet x.wall))) := by
  simp only [exec, execAccept, State.onPlanPort_of_takes ht, State.withSlot_some hi hx, if_neg (not_not.2 suspect),
    accepted]

theorem exec_lift_of_suspect (ht : s.takes .P .planShaping) (hi : s.resolve .P a = some i)
    (hx : s.plan.slot? i = some x) (suspect : x.state = .suspect) {t : State}
    (lifted : (s.setCursor .P i).liftSlot i x = t) :
    exec (.lift a) s = .next (
      if s.plan.hasBuiltFollower i then (s.setCursor .P i).refuse .P 0x38 .hasFollowers
      else t.reply .P 0x38 .ok (.slotState (t.plan.stateOf i))) := by
  simp only [exec, execLift, State.onPlanPort_of_takes ht, State.withSlot_some hi hx, if_neg (not_not.2 suspect),
    State.setCursor_plan, lifted]

/-! ### What an Accept comes to (R98) -/

theorem Plan.allSet_eq_decide (p : Plan) (w : Nat) :
    p.allSet w = decide (∀ e ∈ p.slots, e.2.wall = w → e.2.state = .set) := by
  rw [Bool.eq_iff_iff]
  simp only [Plan.allSet, Plan.slotsOf, List.all_eq_true, List.mem_filter, decide_eq_true_eq, beq_iff_eq, and_imp]

/-- The slot keeps everything it holds; its followers, which the entry into Set does not change, and both neighbours are
judged as one cause (R31, R98). -/
theorem State.enterSet_rejudgeAroundSet (form : tableWf u.plan.slots) (hx : u.plan.slot? i = some x) :
    (u.enter i .set id).rejudgeAroundSet i x = ({ u with
      plan := u.plan.modifySlot i fun _ => { x with state := .set }
      events := u.events.present i x .set u.clock } : State).afterJudging
        (u.plan.followers i ++ (x.left.toList ++ x.right.toList)) := by
  have entered : (u.plan.modifySlot i fun y => { id y with state := .set })
      = u.plan.modifySlot i fun _ => { x with state := .set } := Plan.modifySlot_const u.plan form i x hx _
  have followers : (u.plan.modifySlot i fun y => { id y with state := .set }).followers i = u.plan.followers i :=
    Plan.followers_modifySlot _ _ _ _ fun _ => rfl
  have changed : tableWf (u.plan.modifySlot i fun _ => { x with state := .set }).slots :=
    Plan.tableWf_modifySlot form fun _ _ => SlotState.noConfusion
  rw [State.rejudgeAroundSet, State.enter_in_place hx .set (by rfl) (by rfl), followers, entered,
    State.rejudge_eq changed]
  rfl

/-! ### What a Lift comes to (R100) -/

/-- The wall loses the laid slot from its count and is complete no longer, in one change of its record. -/
theorem State.liftSlot_eq (form : tableWf u.plan.slots) (hx : u.plan.slot? i = some x) :
    u.liftSlot i x = ({ u with
      plan := (u.plan.modifySlot i fun _ => x.lifted).modifyWall x.wall fun w =>
        { w with laidCount := w.laidCount - 1, complete := false } } : State).afterJudging
          (i :: (x.left.toList ++ x.right.toList)) := by
  have changed : tableWf (u.plan.modifySlot i fun _ => x.lifted).slots :=
    Plan.tableWf_modifySlot form fun _ _ => SlotState.noConfusion
  rw [← State.rejudge_eq changed, State.liftSlot, State.loseLaid, State.modifySlot,
    Plan.modifySlot_const u.plan form i x hx, State.modifyWall, State.modifyWall, Plan.modifyWall_modifyWall]
  rfl

end AcceptAndLift

/-- Settles O51: the address, the state and the followers decide; then an Accept is an entry into Set and a Lift a
return to Planned, each with the judgement of its cause. -/
theorem acceptAndLift : Obligations.AcceptAndLift := by
  refine ⟨fun s a => exec_acceptOrLift_of_unresolved, ?_⟩
  rintro s a i _ ht hi form rfl
  refine ⟨exec_acceptOrLift_of_not_suspect ht hi, fun x hx suspect => ?_⟩
  have formCursor : tableWf (s.setCursor .P i).plan.slots := by rwa [State.setCursor_plan]
  have hxCursor : (s.setCursor .P i).plan.slot? i = some x := by rwa [State.setCursor_plan]
  have lift := exec_lift_of_suspect ht hi hx suspect (State.liftSlot_eq formCursor hxCursor)
  refine ⟨⟨_, rfl, ?_⟩, fun built => ?_, fun unbuilt => ⟨_, rfl, ?_⟩⟩
  · rw [exec_accept_of_suspect ht hi hx suspect (State.enterSet_rejudgeAroundSet formCursor hxCursor),
      State.completionTest_eq, Plan.allSet_eq_decide]
    rfl
  · rw [lift, if_pos ((s.plan.hasBuiltFollower_iff form i).2 built)]
  · have none_built : ¬ s.plan.hasBuiltFollower i = true := by
      rw [s.plan.hasBuiltFollower_iff form i]
      rintro ⟨j, y, hy, supports, claimed | laid⟩
      · exact (unbuilt j y hy supports).1 claimed
      · exact Bool.noConfusion ((unbuilt j y hy supports).2.symm.trans laid)
    rw [lift, if_neg none_built]
    rfl

end Sys2Proof.Machine

/-! PROOFS of site time, adhesive open time, the weather gates and the options (spec/06): Glued (R54, R109, R110), Set
Time (R107), Conditions (R112, R113, R117 to R119) and Set Option (R123, R124). -/

namespace Sys2Proof.Machine

open Sys2Proof

/-! ### The open time (R109, R110) -/

section OpenTime

variable {s : State} {tag : Byte} {c : Carrier} {now : Nat}

theorem openTime_eq (c : Conditions) (o : Options) :
    (openTime c o : Int) = max 60 (min 3600 (o.otRef - (o.otRef * o.slope * (c.temperature - 20)).tdiv 1024)) :=
  Int.toNat_of_nonneg (Int.le_trans (by decide) (Int.le_max_left _ _))

theorem State.openTimeNow_of_stale (h : s.conditions.stale = true) : s.openTimeNow = 60 := if_pos h

theorem State.openTimeNow_of_fresh (h : s.conditions.stale = false) :
    s.openTimeNow = openTime s.conditions s.options := by
  rw [State.openTimeNow, h, if_neg Bool.false_ne_true]

theorem State.openTimeNow_range (s : State) : 60 ≤ s.openTimeNow ∧ s.openTimeNow ≤ 3600 := by
  cases h : s.conditions.stale with
  | true => rw [State.openTimeNow_of_stale h]; decide
  | false =>
    have clamped := openTime_eq s.conditions s.options
    rw [State.openTimeNow_of_fresh h]
    omega

/-! ### Glued (R54) -/

theorem Carrier.mayGlue_iff (c : Carrier) :
    c.mayGlue = true ↔ c.stage = .cut ∨ (c.stage = .picked ∧ c.cutLength = none) := by
  simp only [Carrier.mayGlue, Bool.or_eq_true, Bool.and_eq_true, beq_iff_eq, Option.isNone_iff_eq_none]

theorem exec_glued_of_mayGlue (hc : s.carrier? tag.toNat = some c) (clock : s.clock = some now)
    (may : c.mayGlue = true) {deadline : Nat} (hd : deadline = min (now + s.openTimeNow) 4294967295) :
    exec (.glued tag) s = .next (({ s with
      line := lineWith s.line c.tag fun d => { d with stage := .glued, deadline := some deadline } }
        : State).reply .M 0x53 .ok (.glued c.tag .glued s.openTimeNow deadline)) := by
  subst hd
  simp only [exec, execGlued, State.withCarrier_some hc, if_pos may, clock, State.modifyCarrier_eq, Config.maxTime]

theorem exec_glued_of_not_mayGlue (hc : s.carrier? tag.toNat = some c) (may : ¬ c.mayGlue = true) :
    exec (.glued tag) s = .next (s.refuse .M 0x53 .outOfStep) := by
  simp only [exec, execGlued, State.withCarrier_some hc, if_neg may]

end OpenTime

/-- Settles O30: the open time is the model's own, 60 or the clamped figure of R109, and so within its bounds. -/
theorem gluedFixesTheDeadline : Obligations.GluedFixesTheDeadline := by
  refine fun s tag c hc => ⟨fun now clock stage => ?_, fun stage => ?_⟩
  · refine ⟨s.openTimeNow, _, State.openTimeNow_of_stale, fun fresh => ?_, s.openTimeNow_range.1,
      s.openTimeNow_range.2, rfl, exec_glued_of_mayGlue hc clock (c.mayGlue_iff.2 stage) rfl⟩
    rw [State.openTimeNow_of_fresh fresh, openTime_eq]
  · exact exec_glued_of_not_mayGlue hc (mt c.mayGlue_iff.1 stage)

/-! ### The gates (R117 to R119, R122) -/

/-- A wind gate is Open after a report that finds the wind below the threshold of the state the gate was in. -/
theorem windGate_eq (closeAt openBelow : Int) (before : Gate) (w : Nat) :
    windGate closeAt openBelow before w =
      if (before = .opened ∧ (w : Int) < closeAt) ∨ (before = .closed ∧ (w : Int) < openBelow)
        then .opened else .closed := by
  cases before with
  | opened =>
    rw [windGate, ← ite_not]
    simp only [Int.not_le, true_and, reduceCtorEq, false_and, or_false]
  | closed => simp only [windGate, true_and, reduceCtorEq, false_and, false_or]

theorem Conditions.gatesDiffer_eq (c d : Conditions) :
    c.gatesDiffer d = decide (d.glue ≠ c.glue ∨ d.exposure ≠ c.exposure ∨ d.stop ≠ c.stop) := by
  rw [Bool.eq_iff_iff]
  simp only [Conditions.gatesDiffer, Bool.or_eq_true, bne_iff_ne, decide_eq_true_eq, or_assoc, ne_comm]

theorem Gate.bne_closed (g : Gate) : (g != .closed) = (g == .opened) := by cases g <;> rfl

/-- Where every gate becomes Closed, the gates that change are those that were Open (R120). -/
theorem Conditions.gatesDiffer_of_closed (c : Conditions) {d : Conditions} (glue : d.glue = .closed)
    (exposure : d.exposure = .closed) (stop : d.stop = .closed) : c.gatesDiffer d = c.someGateOpen := by
  simp only [Conditions.gatesDiffer, Conditions.someGateOpen, glue, exposure, stop, Gate.bne_closed]

/-! ### Set Time (R107) -/

section SetTime

variable {s : State} {v : Word}

theorem exec_setTime_of_occupied (ht : s.takes .P .planShaping) (occupied : s.line ≠ []) :
    exec (.setTime v) s = .next (s.refuse .P 0x39 .lineNotEmpty) := by
  simp only [exec, execSetTime, State.onPlanPort_of_takes ht, List.isEmpty_iff, if_neg occupied]

theorem exec_setTime_of_empty (ht : s.takes .P .planShaping) (empty : s.line = []) :
    exec (.setTime v) s = .next (({ s with clock := some v.toNat }.setConditions
      { s.conditions.turnStale with lastReport := none }).reply .P 0x39 .ok (.clockSet v.toNat)) := by
  simp only [exec, execSetTime, State.onPlanPort_of_takes ht, List.isEmpty_iff, if_pos empty]

end SetTime

/-- Settles O39: the record written has every gate Closed, so GateChange latches where one was Open. -/
theorem setTimeMakesTheRecordStale : Obligations.SetTimeMakesTheRecordStale := by
  refine ⟨fun s v idle refused => ?_, fun s v ht => ⟨exec_setTime_of_occupied ht, fun empty => ?_⟩⟩
  · simp only [exec, execSetTime, State.onPlanPort_of_not_takes idle refused]
  · have changed : s.conditions.gatesDiffer { s.conditions.turnStale with lastReport := none }
        = s.conditions.someGateOpen := s.conditions.gatesDiffer_of_closed rfl rfl rfl
    rw [exec_setTime_of_empty ht empty, ← changed, ← Bool.and_true (!s.conditions.stale)]
    rfl

/-! ### Conditions (R112, R113) -/

section ConditionsReport

variable {s : State} {temperature wind : Byte} {now : Nat}

theorem clockCounts_of_lt (h : now < 4294967295) : clockCounts (some now) = true := decide_eq_true h

theorem clockCounts_of_unset_or_largest {clock : Option Nat} (h : clock = none ∨ clock = some 4294967295) :
    clockCounts clock = false := by
  obtain rfl | rfl := h <;> rfl

/-- Both values clamped, and the range flag where the clamping changed one (R112). -/
theorem Conditions.storeReport_eq (c : Conditions) {temperature t : Int} {wind w : Nat} {range : Bool}
    (ht : t = max (-40) (min 85 temperature)) (hw : w = min 250 wind)
    (hr : range = decide (t ≠ temperature ∨ w ≠ wind)) :
    c.storeReport temperature wind = { c with temperature := t, wind := w, range := range } := by
  have flag : (t != temperature || w != wind) = range := by
    rw [hr, Bool.eq_iff_iff]
    simp only [Bool.or_eq_true, bne_iff_ne, decide_eq_true_eq]
  have temperature_eq : clampInt (-40) 85 temperature = t := ht.symm
  have wind_eq : min wind 250 = w := by rw [hw, Nat.min_comm]
  rw [Conditions.storeReport, temperature_eq, wind_eq, flag]

theorem exec_conditions_of_counting (h : clockCounts s.clock = true) {c : Conditions}
    (hc : c = ({ s.conditions.storeReport temperature.toInt wind.toNat with
      lastReport := s.clock, stale := false } : Conditions).evaluateGates s.options) :
    exec (.conditions temperature wind) s = .next ((s.setConditions c).reply .M 0x58 .ok (.weather c)) := by
  subst hc
  simp only [exec, execConditions, Conditions.report, h, if_true]

theorem exec_conditions_of_not_counting (h : clockCounts s.clock = false) {c : Conditions}
    (hc : c = ({ s.conditions.storeReport temperature.toInt wind.toNat with
      lastReport := s.clock } : Conditions).turnStale) :
    exec (.conditions temperature wind) s = .next (({ s with conditions := c } : State).reply .M 0x58 .ok
      (.weather c)) := by
  subst hc
  simp only [exec, execConditions, Conditions.report, h, Bool.false_eq_true, if_false]

/-- A fresh record does not turn stale, so that GateChange alone can latch (R122). -/
theorem State.setConditions_of_fresh {c : Conditions} (fresh : c.stale = false) :
    s.setConditions c = { s with
      conditions := c
      events := { s.events with
        gateChange := s.events.gateChange || decide (c.glue ≠ s.conditions.glue
          ∨ c.exposure ≠ s.conditions.exposure ∨ c.stop ≠ s.conditions.stop) } } := by
  rw [State.setConditions, fresh, Bool.and_false, Conditions.gatesDiffer_eq, State.latchWeather, Bool.or_false]

end ConditionsReport

/-- Settles O40: the values stored, then the gates evaluated or Closed as the clock has it. -/
theorem conditionsReportSetsTheGates : Obligations.ConditionsReportSetsTheGates := by
  refine fun s temperature wind t w range ht hw hr => ⟨fun now clock below => ⟨_, rfl, ?_⟩, fun clock => ⟨_, rfl, ?_⟩⟩
  · have counts : clockCounts s.clock = true := by rw [clock]; exact clockCounts_of_lt below
    rw [← State.setConditions_of_fresh (by rfl)]
    apply exec_conditions_of_counting counts
    rw [Conditions.storeReport_eq _ ht hw hr, clock, ← windGate_eq, ← windGate_eq]
    rfl
  · apply exec_conditions_of_not_counting (clockCounts_of_unset_or_largest clock)
    rw [Conditions.storeReport_eq _ ht hw hr]
    rfl

/-! ### The options (R123) -/

section OptionValues

variable {o o' : Options} {code : Nat} {lo hi v : Int}

theorem optionRange_of_mem (h : (code, lo, hi) ∈ optionTable) : optionRange code = some (lo, hi) := by
  have all : ∀ e ∈ optionTable, optionRange e.1 = some e.2 := by decide
  exact all _ h

theorem optionRange_of_outside (h : code = 0 ∨ 10 < code) : optionRange code = none := by
  obtain rfl | above := h
  · rfl
  · obtain ⟨n, rfl⟩ := Nat.exists_eq_add_of_le' (Nat.succ_le_of_lt above)
    rfl

theorem code_of_mem (h : (code, lo, hi) ∈ optionTable) : 1 ≤ code ∧ code ≤ 10 := by
  have all : ∀ e ∈ optionTable, 1 ≤ e.1 ∧ e.1 ≤ 10 := by decide
  exact all _ h

/-- The ten codes reach every field. -/
theorem Options.eq_of_valueOf (h : ∀ k, o.valueOf k = o'.valueOf k) : o = o' := by
  cases o
  cases o'
  simp only [Options.mk.injEq]
  exact ⟨h 1, h 2, h 3, h 4, h 5, h 6, h 7, h 8, h 9, h 10⟩

theorem Options.valueOf_write_same (o : Options) (h : 1 ≤ code ∧ code ≤ 10) (v : Int) :
    (o.write code v).valueOf code = v := by
  obtain ⟨low, high⟩ := h
  interval_cases code <;> rfl

/-- The code written against the code read: each pair names two fields, or is ruled out. -/
theorem Options.valueOf_write_other (o : Options) {k : Nat} (h : k ≠ code) (v : Int) :
    (o.write code v).valueOf k = o.valueOf k := by
  unfold Options.write
  split <;> unfold Options.valueOf <;> split <;> first | rfl | contradiction

/-- The options are known by their values, so a write is known by what it does to each. -/
theorem Options.eq_write (h : 1 ≤ code ∧ code ≤ 10)
    (values : ∀ k, o'.valueOf k = if k = code then v else o.valueOf k) : o' = o.write code v := by
  refine Options.eq_of_valueOf fun k => ?_
  rw [values k]
  split
  · next same => rw [same, Options.valueOf_write_same o h]
  · next other => rw [Options.valueOf_write_other o other]

/-- A write touches one pair at most; the others hold as they did. -/
theorem Options.pairHolds_write_iff (lawful : o.lawful) :
    (o.write code v).pairHolds code = true ↔ (o.write code v).pairsHold := by
  obtain ⟨-, -, ⟨-, glue, -⟩, ⟨-, exposure, -⟩, ⟨-, stop, -⟩, -⟩ := lawful
  unfold Options.write
  split <;> simp only [Options.pairHolds, Options.pairsHold, decide_eq_true_eq, true_iff] <;> omega

end OptionValues

/-! ### Set Option (R124) -/

section SetOption

variable {s : State} {code : Byte} {value : Word} {lo hi : Int} {o : Options}

theorem exec_setOption_of_unknown (ht : s.takes .P .planShaping) (range : optionRange code.toNat = none) :
    exec (.setOption code value) s = .next (s.refuse .P 0x3A .unknown) := by
  simp only [exec, execSetOption, State.onPlanPort_of_takes ht, range]

theorem exec_setOption_of_range (ht : s.takes .P .planShaping) (range : optionRange code.toNat = some (lo, hi))
    (written : o = s.options.write code.toNat (clampInt lo hi value.toInt)) :
    exec (.setOption code value) s = .next (
      if o.pairHolds code.toNat then
        ({ s with options := o } : State).reply .P 0x3A .ok (.option code.toNat (clampInt lo hi value.toInt))
      else s.refuse .P 0x3A .badValue) := by
  subst written
  simp only [exec, execSetOption, State.onPlanPort_of_takes ht, range]

end SetOption

/-- Settles O41: the options that take the clamped value under this code alone are those of the model's write. -/
theorem setOptionClampsAndTests : Obligations.SetOptionClampsAndTests := by
  refine ⟨fun s code value idle refused => ?_, fun s code value ht lawful => ⟨fun outside => ?_, ?_⟩⟩
  · simp only [exec, execSetOption, State.onPlanPort_of_not_takes idle refused]
  · exact exec_setOption_of_unknown ht (optionRange_of_outside outside)
  · rintro lo hi _ o listed rfl values
    have written := Options.eq_write (code_of_mem listed) values
    have pair : o.pairHolds code.toNat = true ↔ o.pairsHold := written ▸ Options.pairHolds_write_iff lawful
    have answer := exec_setOption_of_range (value := value) ht (optionRange_of_mem listed) written
    refine ⟨fun holds => ?_, fun broken => ?_⟩
    · rw [answer, if_pos (pair.2 holds)]
      rfl
    · rw [answer, if_neg (mt pair.1 broken)]

end Sys2Proof.Machine

/-! PROOFS of plan editing slot by slot (spec/07 sections 7.1 and 7.2): Slot Load (R127, R128), Slot Restore (R129,
R130), Slot Delete, Withhold, Free and Clear (R133 to R135). -/

namespace Sys2Proof.Machine

open Sys2Proof

/-! ### A port P command with a slot address (R13, R14) -/

section Addressed

variable {s : State} {a : SlotAddress} {i : Nat} {x : Slot} {code : Byte} {c : CommandClass}

theorem State.next_withAddress_unresolved {take : Nat → State → State} (ht : s.takes .P c)
    (unresolved : s.resolve .P a = none) :
    (.next (s.onPlanPort code c fun s => s.withAddress .P code a take) : Result)
      = .next (s.refuse .P code .badAddress) := by
  rw [State.onPlanPort_of_takes ht, State.withAddress_none unresolved]

theorem State.next_withAddress_resolved {take : Nat → State → State} (ht : s.takes .P c)
    (hi : s.resolve .P a = some i) :
    (.next (s.onPlanPort code c fun s => s.withAddress .P code a take) : Result)
      = .next (take i (s.setCursor .P i)) := by
  rw [State.onPlanPort_of_takes ht, State.withAddress_some hi]

theorem State.next_withSlot_unresolved {take : Nat → Slot → State → State} (ht : s.takes .P c)
    (unresolved : s.resolve .P a = none) :
    (.next (s.onPlanPort code c fun s => s.withSlot code a take) : Result) = .next (s.refuse .P code .badAddress) := by
  rw [State.onPlanPort_of_takes ht, State.withSlot_unresolved unresolved]

theorem State.next_withSlot_empty {take : Nat → Slot → State → State} (ht : s.takes .P c)
    (hi : s.resolve .P a = some i) (hx : s.plan.slot? i = none) :
    (.next (s.onPlanPort code c fun s => s.withSlot code a take) : Result)
      = .next ((s.setCursor .P i).refuse .P code .badState) := by
  rw [State.onPlanPort_of_takes ht, State.withSlot_empty hi hx]

theorem State.next_withSlot_some {take : Nat → Slot → State → State} (ht : s.takes .P c)
    (hi : s.resolve .P a = some i) (hx : s.plan.slot? i = some x) :
    (.next (s.onPlanPort code c fun s => s.withSlot code a take) : Result)
      = .next (take i x (s.setCursor .P i)) := by
  rw [State.onPlanPort_of_takes ht, State.withSlot_some hi hx]

/-- An address resolves to an index of the table alone. -/
theorem State.index_lt_of_resolve {p : Port} (form : tableWf s.plan.slots) (hi : s.resolve p a = some i) :
    i < Config.slotCount := by
  rcases (addressResolution s p a i form).1 hi with ⟨-, -, le⟩ | ⟨-, -, -, x, hx, -⟩ | ⟨-, -, le⟩
  · exact Nat.lt_succ_of_le le
  · exact index_lt_of_get form hx
  · exact Nat.lt_succ_of_le le

end Addressed

/-! ### Slot Load: one record (R127) -/

section LoadRecords

variable {s : State} {r : LoadRecord}

theorem isIndex_iff {i : Nat} : isIndex i = true ↔ i ≤ 4095 := decide_eq_true_iff.trans Nat.lt_succ_iff

theorem not_decide_lt_wallCount (w : Nat) : (!decide (w < Config.wallCount)) = decide (31 < w) := by
  rw [← decide_not, decide_eq_decide, lt_wallCount_iff, Nat.not_le]

/-- A change of a wall that keeps its state keeps the state of every wall. -/
theorem Plan.wall_state_modifyWall (p : Plan) (w v : Nat) {f : Wall → Wall} (keeps : ∀ x, (f x).state = x.state) :
    ((p.modifyWall w f).wall v).state = (p.wall v).state := by
  rw [Plan.wall_modifyWall]
  split
  · exact keeps _
  · rfl

/-- No slot of a wall that is not Open meets the conditions (R26 condition 3). -/
theorem Plan.readyConditions_of_not_opened {p : Plan} {x : Slot} (station : Option Nat)
    (closed : (p.wall x.wall).state ≠ .opened) : p.readyConditions station x = false := by
  rw [← Bool.not_eq_true, Plan.readyConditions_iff]
  rintro ⟨-, -, opened, -⟩
  exact closed opened

theorem Plan.judged_of_planned {p : Plan} {station : Option Nat} {x : Slot} (planned : x.state = .planned)
    (unready : p.readyConditions station x = false) : p.judged station x = x := by
  rw [Plan.judged, if_pos (.inl planned), unready, if_neg Bool.false_ne_true, ← planned]

/-- A cause that names only Planned slots which fail a condition brings the queue to its law and does nothing else
(R27). -/
theorem State.afterJudging_of_unready {ids : List Nat} (unready : ∀ e ∈ s.plan.slots, e.1 ∈ ids →
    e.2.state = .planned ∧ s.plan.readyConditions s.dispatcher.station e.2 = false) :
    s.afterJudging ids = s.replan s.plan := by
  have slots : (s.plan.slots.map fun e =>
      (e.1, if ids.contains e.1 then s.plan.judged s.dispatcher.station e.2 else e.2)) = s.plan.slots := by
    refine (List.map_congr_left fun e he => ?_).trans (List.map_id _)
    split
    · next named =>
      obtain ⟨planned, fails⟩ := unready e he (List.contains_iff_mem.1 named)
      rw [Plan.judged_of_planned planned fails, id]
    · rfl
  have entered : s.plan.newlyReady s.dispatcher.station ids = [] := by
    rw [Plan.newlyReady, List.filter_eq_nil_iff]
    intro e he turns
    rw [Bool.and_eq_true, List.contains_iff_mem, Plan.turnsReady, Bool.and_eq_true] at turns
    obtain ⟨named, -, ready⟩ := turns
    exact Bool.noConfusion ((unready e he named).2.symm.trans ready)
  rw [State.afterJudging, Plan.rejudged, slots, entered]
  rfl

/-- The plan with a load record written into it, before any judgement (R128). -/
def Plan.withRecord (p : Plan) (r : LoadRecord) : Plan :=
  (p.putSlot r.index.toNat (recordOf r.plan)).modifyWall r.plan.wall.toNat fun w =>
    { w with slotCount := w.slotCount + 1, audited := false }

theorem Plan.tableWf_withRecord {p : Plan} (form : tableWf p.slots) (index : r.index.toNat ≤ 4095) :
    tableWf (p.withRecord r).slots :=
  Plan.tableWf_putSlot form (Nat.lt_succ_of_le index) SlotState.noConfusion

theorem State.loadSlot_eq_afterJudging (form : tableWf s.plan.slots) (index : r.index.toNat ≤ 4095) :
    s.loadSlot r = ({ s with plan := s.plan.withRecord r } : State).afterJudging [r.index.toNat] := by
  rw [← State.rejudge_eq (Plan.tableWf_withRecord form index), State.loadSlot, slotOfFields_planned,
    State.clearAudited, State.gainSlot, State.modifyWall, State.modifyWall, Plan.modifyWall_modifyWall]
  rfl

/-- The record loaded stands Planned in a Draft wall, which no judgement changes (R128). -/
theorem State.loadSlot_eq (form : tableWf s.plan.slots) (index : r.index.toNat ≤ 4095)
    (draft : (s.plan.wall r.plan.wall.toNat).state = .draft) : s.loadSlot r = s.replan (s.plan.withRecord r) := by
  rw [State.loadSlot_eq_afterJudging form index, State.afterJudging_of_unready]
  · rfl
  rintro ⟨j, x⟩ listed named
  obtain rfl := List.mem_singleton.1 named
  have written : (s.plan.withRecord r).slot? r.index.toNat = some (recordOf r.plan) :=
    Plan.slot?_putSlot_self _ _ _
  have read := (Plan.mem_slots_iff (Plan.tableWf_withRecord form index)).1 listed
  obtain rfl := Option.some.inj (written.symm.trans read)
  have closed : ((s.plan.withRecord r).wall (recordOf r.plan).wall).state ≠ .opened := by
    rw [Plan.withRecord, Plan.wall_state_modifyWall _ _ _ (by exact fun _ => rfl), Plan.wall_putSlot]
    exact fun opened => WallState.noConfusion (draft.symm.trans opened)
  exact ⟨rfl, Plan.readyConditions_of_not_opened _ closed⟩

theorem Plan.testLoad_of_outside {p : Plan} (outside : 4095 < r.index.toNat) : p.testLoad r = .badValue := by
  have beyond : isIndex r.index.toNat = false := by
    rw [← Bool.not_eq_true, isIndex_iff]
    omega
  simp only [Plan.testLoad, beyond, Bool.not_false, if_true]

theorem Plan.testLoad_of_occupied {p : Plan} (inside : r.index.toNat ≤ 4095)
    (occupied : p.slot? r.index.toNat ≠ none) : p.testLoad r = .full := by
  simp only [Plan.testLoad, isIndex_iff.2 inside, Bool.not_true, Bool.false_eq_true, if_false,
    Option.isSome_iff_ne_none.2 occupied, if_true]

/-- Tests 3 to 5 of R127. -/
theorem Plan.testLoad_of_empty {p : Plan} (inside : r.index.toNat ≤ 4095) (empty : p.slot? r.index.toNat = none) :
    p.testLoad r =
      if 31 < r.plan.wall.toNat then .badValue
      else if (p.wall r.plan.wall.toNat).state ≠ .draft then .badState
      else if p.fieldsInRange r.plan.drawn.supportCount.toNat (recordOf r.plan) then .ok
      else .badValue := by
  simp only [Plan.testLoad, slotOfFields_planned, isIndex_iff.2 inside, Bool.not_true, Bool.false_eq_true, if_false,
    empty, Option.isSome_none, not_decide_lt_wallCount, decide_eq_true_eq]
  rfl

/-- A load record is loaded where its tests pass, and refused as a whole where one fails (R127). -/
def State.afterRecord (r : LoadRecord) (s : State) : State := if s.plan.testLoad r = .ok then s.loadSlot r else s

theorem State.afterRecord_of_ok (ok : s.plan.testLoad r = .ok) : s.afterRecord r = s.loadSlot r := if_pos ok

theorem State.afterRecord_of_refused {code : Status} (refused : s.plan.testLoad r = code) (other : code ≠ .ok) :
    s.afterRecord r = s := if_neg (refused ▸ other)

/-- One record's code and the state it leaves are those of R127. -/
theorem State.takesRecord_testLoad (form : tableWf s.plan.slots) (r : LoadRecord) :
    s.takesRecord r (s.plan.testLoad r) (s.afterRecord r) := by
  have refused {code : Status} (h : s.plan.testLoad r = code) (other : code ≠ .ok) :
      s.plan.testLoad r = code ∧ s.afterRecord r = s := ⟨h, State.afterRecord_of_refused h other⟩
  refine ⟨fun outside => refused (Plan.testLoad_of_outside outside) Status.noConfusion, fun inside =>
    ⟨fun occupied => refused (Plan.testLoad_of_occupied inside occupied) Status.noConfusion, fun empty => ?_⟩⟩
  have code := Plan.testLoad_of_empty inside empty
  refine ⟨fun above => refused (by rw [code, if_pos above]) Status.noConfusion, fun below => ?_⟩
  rw [if_neg (Nat.not_lt.2 below)] at code
  refine ⟨fun other => refused (by rw [code, if_pos other]) Status.noConfusion, fun draft => ?_⟩
  rw [if_neg (not_not.2 draft)] at code
  refine ⟨fun beyond => refused (by rw [code, if_neg (mt (Plan.fieldsInRange_iff _ _ _).1 beyond)]) Status.noConfusion,
    fun lawful => ?_⟩
  rw [if_pos ((Plan.fieldsInRange_iff _ _ _).2 lawful)] at code
  exact ⟨code, (State.afterRecord_of_ok code).trans (State.loadSlot_eq form inside draft)⟩

theorem State.tableWf_afterRecord (form : tableWf s.plan.slots) (r : LoadRecord) :
    tableWf (s.afterRecord r).plan.slots := by
  by_cases ok : s.plan.testLoad r = .ok
  · have index : r.index.toNat ≤ 4095 := by
      by_contra outside
      exact Status.noConfusion (ok.symm.trans (Plan.testLoad_of_outside (Nat.lt_of_not_le outside)))
    rw [State.afterRecord_of_ok ok, State.loadSlot_eq_afterJudging form index]
    exact Plan.tableWf_rejudged (Plan.tableWf_withRecord form index) _ _
  · rwa [State.afterRecord_of_refused rfl ok]

end LoadRecords

/-! ### Slot Load: the records of a frame (R127, R128) -/

/-- The result codes of records taken one after another. -/
def State.recordCodes : List LoadRecord → State → List Status
  | [], _ => []
  | r :: rs, s => s.plan.testLoad r :: State.recordCodes rs (s.afterRecord r)

/-- The state that records taken one after another leave. -/
def State.afterRecords : List LoadRecord → State → State
  | [], s => s
  | r :: rs, s => State.afterRecords rs (s.afterRecord r)

/-- A record names an Empty slot (R128). -/
def Plan.namesEmpty (p : Plan) (r : LoadRecord) : Bool :=
  isIndex r.index.toNat && (p.slot? r.index.toNat).isNone

/-- Some record names an Empty slot when it is tested (R128). -/
def State.someNamesEmpty : List LoadRecord → State → Bool
  | [], _ => false
  | r :: rs, s => s.plan.namesEmpty r || State.someNamesEmpty rs (s.afterRecord r)

section LoadFrame

variable {s : State} {rs : List LoadRecord}

theorem LoadProgress.take_eq (a : LoadProgress) (r : LoadRecord) : a.take r =
    ⟨a.state.afterRecord r, a.codes ++ [a.state.plan.testLoad r],
      a.loaded + [a.state.plan.testLoad r].count .ok, a.namedEmpty || a.state.plan.namesEmpty r⟩ := by
  unfold LoadProgress.take State.afterRecord Plan.namesEmpty
  by_cases ok : a.state.plan.testLoad r = .ok
  · simp [ok]
  · simp [ok]

theorem LoadProgress.foldl_take (rs : List LoadRecord) (a : LoadProgress) : rs.foldl LoadProgress.take a =
    ⟨a.state.afterRecords rs, a.codes ++ a.state.recordCodes rs,
      a.loaded + (a.state.recordCodes rs).count .ok, a.namedEmpty || a.state.someNamesEmpty rs⟩ := by
  induction rs generalizing a with
  | nil => simp [State.afterRecords, State.recordCodes, State.someNamesEmpty]
  | cons r rs ih =>
    rw [List.foldl_cons, ih, LoadProgress.take_eq]
    simp [State.afterRecords, State.recordCodes, State.someNamesEmpty, List.count_cons, Bool.or_assoc, Nat.add_assoc,
      Nat.add_comm]

theorem State.loadRecords_eq (rs : List LoadRecord) (s : State) : s.loadRecords rs =
    ⟨s.afterRecords rs, s.recordCodes rs, (s.recordCodes rs).count .ok, s.someNamesEmpty rs⟩ := by
  rw [State.loadRecords, LoadProgress.foldl_take]
  simp

theorem State.length_recordCodes (rs : List LoadRecord) (s : State) : (s.recordCodes rs).length = rs.length := by
  induction rs generalizing s with
  | nil => rfl
  | cons r rs ih => rw [State.recordCodes, List.length_cons, List.length_cons, ih]

theorem State.takesRecords_recordCodes (form : tableWf s.plan.slots) (rs : List LoadRecord) :
    s.takesRecords rs (s.recordCodes rs) (s.afterRecords rs) := by
  induction rs generalizing s with
  | nil => rfl
  | cons r rs ih => exact ⟨_, State.takesRecord_testLoad form r, ih (State.tableWf_afterRecord form r)⟩

/-- Where no record is loaded, each was tested against the state as it was. -/
theorem State.afterRecords_of_none_loaded (none_loaded : (s.recordCodes rs).count .ok = 0) :
    s.afterRecords rs = s ∧ s.someNamesEmpty rs = rs.any s.plan.namesEmpty := by
  induction rs with
  | nil => exact ⟨rfl, rfl⟩
  | cons r rs ih =>
    rw [State.recordCodes, List.count_eq_zero, List.mem_cons, not_or] at none_loaded
    obtain ⟨refused, others⟩ := none_loaded
    have stays : s.afterRecord r = s := State.afterRecord_of_refused rfl (Ne.symm refused)
    rw [stays, ← List.count_eq_zero] at others
    rw [State.afterRecords, State.someNamesEmpty, List.any_cons, stays, (ih others).1, (ih others).2]
    exact ⟨rfl, rfl⟩

theorem Plan.namesEmpty_iff {p : Plan} {r : LoadRecord} :
    p.namesEmpty r = true ↔ r.index.toNat ≤ 4095 ∧ p.slot? r.index.toNat = none := by
  rw [Plan.namesEmpty, Bool.and_eq_true, isIndex_iff, Option.isNone_iff_eq_none]

theorem exec_slotLoad (ht : s.takes .P .planShaping) (some_record : 1 ≤ rs.length) (room : rs.length ≤ 8) :
    exec (.slotLoad rs) s = .next ((s.afterRecords rs).reply .P 0x30
      (if 0 < (s.recordCodes rs).count .ok then .ok
        else if s.someNamesEmpty rs then (s.recordCodes rs).headD .full else .full)
      (.load ((s.recordCodes rs).count .ok) (s.recordCodes rs))) := by
  have size : ¬ (rs.length = 0 ∨ 8 < rs.length) := by omega
  simp only [exec, execSlotLoad, if_neg size, State.onPlanPort_of_takes ht, State.loadRecords_eq,
    LoadProgress.status]

end LoadFrame

/-- Settles O47, by the records of the frame one after the other. -/
theorem slotLoadTakesItsRecords : Obligations.SlotLoadTakesItsRecords := by
  intro s rs ht some_record room form _
  have answer := exec_slotLoad ht some_record room
  refine ⟨s.recordCodes rs, s.afterRecords rs, State.takesRecords_recordCodes form rs, State.length_recordCodes rs s,
    fun loaded => ?_, fun none_loaded => ?_⟩
  · rw [answer, if_pos loaded]
  obtain ⟨stays, named⟩ := State.afterRecords_of_none_loaded none_loaded
  rw [stays, named, none_loaded, if_neg (Nat.lt_irrefl 0)] at answer
  refine ⟨stays, fun occupied => ?_, fun ⟨r, hr, inside, empty⟩ c head => ?_⟩
  · rw [answer, if_neg]
    rw [List.any_eq_true]
    rintro ⟨r, hr, names⟩
    obtain ⟨inside, empty⟩ := Plan.namesEmpty_iff.1 names
    exact occupied r hr inside empty
  · have names : rs.any s.plan.namesEmpty = true :=
      List.any_eq_true.2 ⟨r, hr, Plan.namesEmpty_iff.2 ⟨inside, empty⟩⟩
    rw [answer, if_pos names, List.headD_eq_head?_getD, head, Option.getD_some]

/-! ### Slot Restore (R129, R130) -/

section SlotRestore

variable {s : State} {ad : SlotAddress} {i : Nat} {f : PlanFields} {l : AsLaidFields}

theorem exec_slotRestore_of_occupied (ht : s.takes .P .planShaping) (hi : s.resolve .P ad = some i)
    (occupied : s.plan.slot? i ≠ none) :
    exec (.slotRestore ad f l) s = .next ((s.setCursor .P i).refuse .P 0x31 .badState) :=
  (State.next_withAddress_resolved ht hi).trans
    (congrArg Host.Outcome.next (if_pos (Option.isSome_iff_ne_none.2 occupied)))

/-- Tests 3 to 5 of R129 in their order. -/
theorem exec_slotRestore_of_empty (ht : s.takes .P .planShaping) (hi : s.resolve .P ad = some i)
    (empty : s.plan.slot? i = none) :
    exec (.slotRestore ad f l) s = .next (
      if 31 < f.wall.toNat then (s.setCursor .P i).refuse .P 0x31 .badValue
      else if (s.plan.wall f.wall.toNat).state ≠ .draft then (s.setCursor .P i).refuse .P 0x31 .badState
      else if s.plan.restoreInRange f.drawn.supportCount.toNat (slotOfFields f .set) (asLaidOf l) then
        ((s.setCursor .P i).restoreSlot i (slotOfFields f .set) (asLaidOf l)).refuse .P 0x31 .ok
      else (s.setCursor .P i).refuse .P 0x31 .badValue) := by
  simp only [exec, execSlotRestore, State.onPlanPort_of_takes ht, State.withAddress_some hi, State.setCursor_plan,
    empty, Option.isSome_none, Bool.false_eq_true, if_false, not_decide_lt_wallCount, decide_eq_true_eq]
  rfl

/-- The plan with a built slot written into it, before any judgement (R130). -/
def Plan.withBuilt (p : Plan) (i : Nat) (y : Slot) : Plan :=
  (p.putSlot i y).modifyWall y.wall fun w =>
    { w with slotCount := w.slotCount + 1, laidCount := w.laidCount + 1, audited := false }

/-- The slot is presented as it stands, and the slots around it are judged as one cause (R31, R130). -/
theorem State.restoreSlot_eq (form : tableWf s.plan.slots) (index : i < Config.slotCount) {x y : Slot} {a : AsLaid}
    (built : y = { x with state := .set, asLaid := some a }) :
    s.restoreSlot i x a = ({ s with
      plan := s.plan.withBuilt i y
      events := s.events.present i y .set s.clock } : State).afterJudging
        ((s.plan.withBuilt i y).followers i ++ (y.left.toList ++ y.right.toList)) := by
  have formBuilt : tableWf (s.plan.withBuilt i y).slots :=
    Plan.tableWf_putSlot form index (built ▸ SlotState.noConfusion)
  have written : (s.plan.withBuilt i y).slot? i = some y := Plan.slot?_putSlot_self _ _ _
  rw [← State.rejudge_eq formBuilt, ← State.present_of_slot? (s := { s with plan := s.plan.withBuilt i y }) written]
  subst built
  simp only [State.restoreSlot, State.clearAudited, State.gainLaid, State.gainSlot, State.modifyWall,
    Plan.modifyWall_modifyWall, State.putSlot, State.rejudgeAroundSet, State.present_plan]
  rfl

end SlotRestore

/-- Settles O48: the tests in their order, then the slot written and its surroundings judged as one cause. -/
theorem slotRestoreWritesABuiltSlot : Obligations.SlotRestoreWritesABuiltSlot := by
  refine ⟨fun s ad f l ht unresolved => State.next_withAddress_unresolved ht unresolved, ?_⟩
  rintro s ad i f l _ a y ht hi form rfl ha hy
  have index := State.index_lt_of_resolve form hi
  have built : y = { slotOfFields f .set with state := .set, asLaid := some a } := by
    rw [hy, ← slotOfFields_planned]
    rfl
  have wall : y.wall = f.wall.toNat := by rw [built]; rfl
  have ranges : s.plan.restoreInRange f.drawn.supportCount.toNat (slotOfFields f .set) a = true
      ↔ s.plan.restoredLawful y f.drawn.supportCount.toNat a := by
    rw [Plan.restoreInRange_iff, built]
    rfl
  refine ⟨exec_slotRestore_of_occupied ht hi, fun empty => ?_⟩
  have answer := exec_slotRestore_of_empty (f := f) (l := l) ht hi empty
  rw [← wall, show asLaidOf l = a from ha.symm] at answer
  refine ⟨fun above => ?_, fun below => ⟨fun other => ?_, fun draft => ⟨fun beyond => ?_, ?_⟩⟩⟩
  · rw [answer, if_pos above]
  · rw [answer, if_neg (Nat.not_lt.2 below), if_pos other]
  · rw [answer, if_neg (Nat.not_lt.2 below), if_neg (not_not.2 draft), if_neg (mt ranges.1 beyond)]
  · rintro lawful _ rfl
    have formCursor : tableWf (s.setCursor .P i).plan.slots := by rwa [State.setCursor_plan]
    rw [answer, if_neg (Nat.not_lt.2 below), if_neg (not_not.2 draft), if_pos (ranges.2 lawful),
      State.restoreSlot_eq formCursor index built]
    rfl

/-! ### Slot Delete and Clear (R133, R135) -/

section DeleteAndClear

variable {s : State} {ad : SlotAddress} {i : Nat} {x : Slot}

/-- The wall loses the slot from its count and its audited flag, in one change of its record (R133). -/
theorem exec_slotDelete (ht : s.takes .P .planShaping) (hi : s.resolve .P ad = some i)
    (hx : s.plan.slot? i = some x) :
    exec (.slotDelete ad) s = .next (
      if (s.plan.wall x.wall).state ≠ .draft ∨ x.state ≠ .planned then (s.setCursor .P i).refuse .P 0x33 .badState
      else ({ s.setCursor .P i with
        plan := (s.plan.eraseSlot i).modifyWall x.wall fun w =>
          { w with slotCount := w.slotCount - 1, audited := false } } : State).refuse .P 0x33 .ok) := by
  simp only [exec, execSlotDelete, State.onPlanPort_of_takes ht, State.withSlot_some hi hx, State.clearAudited,
    State.loseSlot, State.modifyWall, Plan.modifyWall_modifyWall, State.setCursor_plan]
  rfl

theorem exec_clear_of_not_fault (ht : s.takes .P .planShaping) (hi : s.resolve .P ad = some i)
    (hx : s.plan.slot? i = some x) (other : x.state ≠ .fault) :
    exec (.clear ad) s = .next ((s.setCursor .P i).refuse .P 0x36 .badState) := by
  simp only [exec, execClear, State.onPlanPort_of_takes ht, State.withSlot_some hi hx, if_pos other]

theorem exec_clear_of_fault (ht : s.takes .P .planShaping) (hi : s.resolve .P ad = some i)
    (form : tableWf s.plan.slots) (hx : s.plan.slot? i = some x) (fault : x.state = .fault) {t : State}
    (cleared : t = ({ s.setCursor .P i with plan := s.plan.modifySlot i fun _ =>
      { x with state := .planned, faultReason := none } } : State).afterJudging [i]) :
    exec (.clear ad) s = .next (t.reply .P 0x36 .ok (.slotState (t.plan.stateOf i))) := by
  have changed : tableWf (s.plan.modifySlot i fun _ => { x with state := .planned, faultReason := none }).slots :=
    Plan.tableWf_modifySlot form fun _ _ => SlotState.noConfusion
  rw [cleared, ← State.rejudge_eq changed, ← Plan.modifySlot_const s.plan form i x hx fun y =>
    { y with state := .planned, faultReason := none }]
  simp only [exec, execClear, State.onPlanPort_of_takes ht, State.withSlot_some hi hx, if_neg (not_not.2 fault)]
  rfl

end DeleteAndClear

/-! ### Withhold and Free (R134) -/

section WithholdAndFree

variable {u : State} {code : Byte} {flag : Bool} {i : Nat} {x : Slot}

theorem State.withholdCommand_of_claimed (claimed : x.state = .claimed) :
    u.withholdCommand code flag i x = u.refuse .P code .inFlight := if_pos claimed

theorem State.afterWithheld_of_kept (kept : x.state.laid = true ∨ x.withheld = flag) :
    u.afterWithheld i x flag = u := if_pos kept

theorem State.afterWithheld_of_changed (unlaid : ¬ x.state.laid = true) (other : x.withheld ≠ flag) :
    u.afterWithheld i x flag
      = ({ u with plan := u.plan.modifySlot i fun _ => { x with withheld := flag } } : State).afterJudging [i] :=
  if_neg (not_or.2 ⟨unlaid, other⟩)

/-- The answer shows the slot as it stands after the command. -/
theorem State.withholdCommand_of_not_claimed (form : tableWf u.plan.slots) (hx : u.plan.slot? i = some x)
    (unclaimed : x.state ≠ .claimed) {t : State} (after : u.afterWithheld i x flag = t) :
    u.withholdCommand code flag i x
      = t.reply .P code .ok (.withheld (t.plan.stateOf i) (t.plan.withheldOf i)) := by
  simp only [State.withholdCommand, if_neg unclaimed, State.setWithheld_eq i x flag u form hx, after]

theorem State.withholdCommand_of_kept (form : tableWf u.plan.slots) (hx : u.plan.slot? i = some x)
    (unclaimed : x.state ≠ .claimed) (kept : x.state.laid = true ∨ x.withheld = flag) :
    u.withholdCommand code flag i x = u.reply .P code .ok (.withheld x.state x.withheld) := by
  have shown : u.plan.withheldOf i = x.withheld := by rw [Plan.withheldOf, hx, Option.any_some]
  rw [State.withholdCommand_of_not_claimed form hx unclaimed (State.afterWithheld_of_kept kept),
    Plan.stateOf_of_slot? hx, shown]

/-- A judgement leaves the flag. -/
theorem Plan.withheldOf_rejudged (p : Plan) (station : Option Nat) (ids : List Nat) (i : Nat) :
    (p.rejudged station ids).withheldOf i = p.withheldOf i := by
  rw [Plan.withheldOf, Plan.withheldOf, Plan.slot?_rejudged, Option.any_map]
  congr 1
  funext y
  split
  · rw [Plan.judged_eq]
  · rfl

theorem State.withholdCommand_of_changed (form : tableWf u.plan.slots) (hx : u.plan.slot? i = some x)
    (changes : x.state = .planned ∨ x.state = .ready ∨ x.state = .fault) (other : x.withheld ≠ flag) {t : State}
    (after : t = ({ u with
      plan := u.plan.modifySlot i fun _ => { x with withheld := flag } } : State).afterJudging [i]) :
    u.withholdCommand code flag i x = t.reply .P code .ok (.withheld (t.plan.stateOf i) flag) := by
  have unclaimed : x.state ≠ .claimed := by rcases changes with h | h | h <;> simp [h]
  have unlaid : ¬ x.state.laid = true := by rcases changes with h | h | h <;> simp [h, SlotState.laid]
  have shown : t.plan.withheldOf i = flag := by
    rw [after, State.afterJudging, Plan.withheldOf_rejudged, Plan.withheldOf, Plan.slot?_modifySlot_self, hx]
    rfl
  rw [State.withholdCommand_of_not_claimed form hx unclaimed
    ((State.afterWithheld_of_changed unlaid other).trans after.symm), shown]

variable {s : State} {ad : SlotAddress}

theorem exec_withhold (ht : s.takes .P .operational) (hi : s.resolve .P ad = some i)
    (hx : s.plan.slot? i = some x) :
    exec (.withhold ad) s = .next ((s.setCursor .P i).withholdCommand 0x34 true i x) :=
  State.next_withSlot_some ht hi hx

theorem exec_free (ht : s.takes .P .operational) (hi : s.resolve .P ad = some i) (hx : s.plan.slot? i = some x) :
    exec (.free ad) s = .next ((s.setCursor .P i).withholdCommand 0x35 false i x) :=
  State.next_withSlot_some ht hi hx

end WithholdAndFree

/-- Settles O50: the address, the slot and its state decide each command; a changed slot is judged alone. -/
theorem deleteWithholdFreeAndClear : Obligations.DeleteWithholdFreeAndClear := by
  refine ⟨fun s ad unresolved => ⟨fun ht => ⟨State.next_withSlot_unresolved ht unresolved,
    State.next_withSlot_unresolved ht unresolved⟩, fun ht => ⟨State.next_withSlot_unresolved ht unresolved,
    State.next_withSlot_unresolved ht unresolved⟩⟩, ?_⟩
  rintro s ad i _ hi form rfl
  have formCursor : tableWf (s.setCursor .P i).plan.slots := by rwa [State.setCursor_plan]
  refine ⟨fun ht => ⟨fun empty => ⟨State.next_withSlot_empty ht hi empty, State.next_withSlot_empty ht hi empty⟩,
    fun x hx => ⟨fun other => ?_, fun draft planned => ?_, exec_clear_of_not_fault ht hi hx,
      fun fault => ⟨_, rfl, exec_clear_of_fault ht hi form hx fault rfl⟩⟩⟩,
    fun ht => ⟨fun empty => ⟨State.next_withSlot_empty ht hi empty, State.next_withSlot_empty ht hi empty⟩,
    fun x hx => ?_⟩⟩
  -- Slot Delete
  · rw [exec_slotDelete ht hi hx, if_pos other]
  · rw [exec_slotDelete ht hi hx, if_neg (by simp [draft, planned])]
  -- Withhold and Free
  have hxCursor : (s.setCursor .P i).plan.slot? i = some x := by rwa [State.setCursor_plan]
  rw [exec_withhold ht hi hx, exec_free ht hi hx]
  refine ⟨fun claimed => ?_, fun unclaimed => ⟨fun kept => ?_, fun kept => ?_⟩, fun changes =>
    ⟨fun unset => ⟨_, rfl, ?_⟩, fun held => ⟨_, rfl, ?_⟩⟩⟩
  · rw [State.withholdCommand_of_claimed claimed, State.withholdCommand_of_claimed claimed]
    exact ⟨rfl, rfl⟩
  · rw [State.withholdCommand_of_kept formCursor hxCursor unclaimed kept]
  · rw [State.withholdCommand_of_kept formCursor hxCursor unclaimed kept]
  · exact congrArg Host.Outcome.next
      (State.withholdCommand_of_changed formCursor hxCursor changes (by simp [unset]) rfl)
  · exact congrArg Host.Outcome.next
      (State.withholdCommand_of_changed formCursor hxCursor changes (by simp [held]) rfl)

end Sys2Proof.Machine

/-! PROOFS of the Edit Engine (spec/07 sections 7.3 to 7.5): the steps of a sweep up to its operation, and Withhold and
Free steps (R138, R139, R141), Audit (R143 to R145) and Abort (R147). -/

namespace Sys2Proof.Machine

open Sys2Proof

/-! ### Endings (R141, R145) -/

theorem State.endSweep_eq (s : State) (c : SweepContext) (r : SweepEnd) :
    s.endSweep c r = s.sweepEnded c r r.status := State.dueOnPlanPort_eq _ _

theorem State.endAudit_eq (s : State) (st : Status) (b : Body) : s.endAudit st b = s.auditEnded st b :=
  State.dueOnPlanPort_eq _ _

/-! ### The tests of a sweep's step (R138) -/

section SweepTests

variable {s : State} {c : SweepContext} {i : Nat}

theorem exec_sweepStep (running : s.engine = .sweep c) : exec .sweepStep s = .next (s.sweepStep c) := by
  simp only [exec, execSweepStep, running]

theorem State.sweepStep_of_abort (pending : c.abortPending = true) :
    s.sweepStep c = s.sweepEnded c .aborted .aborted := by
  rw [State.sweepStep, if_pos pending, State.endSweep_eq]
  rfl

theorem State.sweepStep_of_done (going : c.abortPending = false) (none_left : c.remaining = 0) :
    s.sweepStep c = s.sweepEnded c .done .ok := by
  rw [State.sweepStep, going, if_neg Bool.false_ne_true, if_pos none_left, State.endSweep_eq]
  rfl

theorem State.sweepStep_of_edge (going : c.abortPending = false) (left : c.remaining ≠ 0)
    (outside : c.index < 0 ∨ 4095 < c.index) : s.sweepStep c = s.sweepEnded c .edge .edge := by
  have beyond : c.index < 0 ∨ (Config.slotCount : Int) ≤ c.index := outside
  rw [State.sweepStep, going, if_neg Bool.false_ne_true, if_neg left, if_pos beyond, State.endSweep_eq]
  rfl

theorem State.sweepStep_of_condition (going : c.abortPending = false) (left : c.remaining ≠ 0)
    (index : c.index = (i : Int)) (inside : i ≤ 4095) (fails : c.condition.passes (s.plan.stateOf i) = false) :
    s.sweepStep c = s.sweepEnded c .condEnd .ok := by
  have within : ¬ (c.index < 0 ∨ (Config.slotCount : Int) ≤ c.index) := by
    show ¬ (c.index < 0 ∨ 4096 ≤ c.index)
    omega
  have slot : c.index.toNat = i := by omega
  simp only [State.sweepStep, going, if_neg Bool.false_ne_true, if_neg left, if_neg within, slot, fails,
    State.endSweep_eq]
  rfl

end SweepTests

/-! ### A Withhold or Free step (R139) -/

section SweepWithheld

variable {s : State} {c : SweepContext} {i : Nat} {flag : Bool} {x : Slot}

theorem State.sweepApply_of_flag {op : SweepOp} (ho : op = if flag then .withhold else .free) :
    s.sweepApply i op = s.sweepWithheld i flag := by
  subst ho
  cases flag <;> rfl

theorem State.sweepWithheld_of_empty (hx : s.plan.slot? i = none) : s.sweepWithheld i flag = .ok s := by
  simp only [State.sweepWithheld, hx]

theorem State.sweepWithheld_of_claimed (hx : s.plan.slot? i = some x) (claimed : x.state = .claimed) :
    s.sweepWithheld i flag = .error .inFlight := by
  simp only [State.sweepWithheld, hx, if_pos claimed]

theorem State.sweepWithheld_of_not_claimed (form : tableWf s.plan.slots) (hx : s.plan.slot? i = some x)
    (unclaimed : x.state ≠ .claimed) : s.sweepWithheld i flag = .ok (s.afterWithheld i x flag) := by
  simp only [State.sweepWithheld, hx, if_neg unclaimed, State.setWithheld_eq i x flag s form hx]

end SweepWithheld

/-- Settles O53: the tests of a step one after the other, then the slot's state decides what the operation does. -/
theorem sweepStepTakesItsTests : Obligations.SweepStepTakesItsTests := by
  intro s c running
  refine ⟨fun pending => ?_, fun going => ⟨fun none_left => ?_, fun left => ⟨fun outside => ?_,
    fun i index inside st => ⟨fun whileIn other => ?_, fun untilIn same => ?_⟩⟩⟩, fun i flag reaches op form =>
      ⟨fun hx => ?_, fun x hx => ⟨fun claimed => ?_, fun unclaimed => ?_⟩⟩⟩
  · rw [exec_sweepStep running, State.sweepStep_of_abort pending]
  · rw [exec_sweepStep running, State.sweepStep_of_done going none_left]
  · rw [exec_sweepStep running, State.sweepStep_of_edge going left outside]
  · rw [exec_sweepStep running, State.sweepStep_of_condition going left index inside]
    simp [whileIn, SweepCondition.passes, other]
  · rw [exec_sweepStep running, State.sweepStep_of_condition going left index inside]
    simp [untilIn, SweepCondition.passes, same]
  · rw [sweepStep_of_reaches reaches, State.sweepApply_of_flag op, State.sweepWithheld_of_empty hx]
  · rw [sweepStep_of_reaches reaches, State.sweepApply_of_flag op, State.sweepWithheld_of_claimed hx claimed]
    exact congrArg Host.Outcome.next (State.endSweep_eq s c .inFlight)
  · rw [sweepStep_of_reaches reaches, State.sweepApply_of_flag op,
      State.sweepWithheld_of_not_claimed form hx unclaimed]

/-! ### The checks of an audit (R144) -/

section Checks

variable {p : Plan} {i : Nat} {x : Slot}

theorem Plan.supportIs_iff {j : Nat} {test : Slot → Bool} :
    p.supportIs j test = true ↔ ∃ y, p.slot? j = some y ∧ test y = true := Option.any_eq_true _ _

/-- Check 5 fails on an Empty support too. -/
theorem Plan.failsCheck_supportOtherWall : p.failsCheck i x .supportOtherWall ↔
    (!x.supports.all fun j => p.supportIs j fun y => y.wall == x.wall) = true := by
  simp only [Plan.failsCheck, Bool.not_eq_true', List.all_eq_false, Plan.supportIs_iff, beq_iff_eq, not_exists,
    not_and]

/-- Past check 5 every support has a record, so a test of the records is a test of the supports. -/
theorem Plan.exists_support_iff {test : Slot → Bool} (present : ¬ p.failsCheck i x .supportOtherWall) :
    (∃ j ∈ x.supports, ∃ y, p.slot? j = some y ∧ ¬ test y = true)
      ↔ (!x.supports.all fun j => p.supportIs j test) = true := by
  simp only [Bool.not_eq_true', List.all_eq_false, Plan.supportIs_iff]
  refine exists_congr fun j => and_congr_right fun hj => ?_
  obtain ⟨y, hy⟩ : ∃ y, p.slot? j = some y := by
    by_contra absent
    exact present ⟨j, hj, fun y hy => absurd ⟨y, hy⟩ absent⟩
  simp [hy]

theorem Plan.failsCheck_supportCourse (present : ¬ p.failsCheck i x .supportOtherWall) :
    p.failsCheck i x .supportCourse ↔
      (!x.supports.all fun j => p.supportIs j fun y => y.course + 1 == x.course) = true := by
  rw [← Plan.exists_support_iff present]
  simp only [Plan.failsCheck, beq_iff_eq, ne_eq]

theorem Plan.failsCheck_supportNoOverlap (present : ¬ p.failsCheck i x .supportOtherWall) :
    p.failsCheck i x .supportNoOverlap ↔ (!x.supports.all fun j => p.supportIs j fun y => p.overlaps y x) = true := by
  rw [← Plan.exists_support_iff present]
  simp only [Plan.failsCheck, Plan.overlaps_iff]

theorem Plan.failsCheck_courseOverlap (form : tableWf p.slots) : p.failsCheck i x .courseOverlap ↔
    (p.slots.any fun e => e.1 != i && e.2.wall == x.wall && e.2.course == x.course && p.overlaps e.2 x) = true := by
  simp only [Plan.failsCheck, List.any_eq_true, Prod.exists, Plan.mem_slots_iff form, Bool.and_eq_true, bne_iff_ne,
    beq_iff_eq, Plan.overlaps_iff, and_assoc]
  refine exists_congr fun j => exists_congr fun y => ?_
  tauto

theorem Plan.failsCheck_neighbourLink :
    p.failsCheck i x .neighbourLink ↔ (!(p.leftSound i x && p.rightSound i x)) = true := by
  simp only [Plan.failsCheck, Plan.leftSound, Plan.rightSound, Bool.not_eq_true', ← Bool.not_eq_true,
    Option.all_eq_true, Plan.supportIs_iff, Bool.and_eq_true, beq_iff_eq, decide_eq_true_eq, and_assoc]
  simp only [not_and_or, not_forall, exists_prop]

/-- The test the model makes for a failure code, the others left aside. -/
def Plan.auditTest (p : Plan) (i : Nat) (x : Slot) : AuditFailure → Bool
  | .typeUndefined => !(p.brickType x.type).defined
  | .courseRange => (p.wall x.wall).params.courseCount ≤ x.course
  | .courseZeroSupport => x.course = 0 ∧ x.supports ≠ []
  | .supportMissing => 0 < x.course ∧ x.supports = []
  | .supportOtherWall => !x.supports.all fun j => p.supportIs j fun y => y.wall == x.wall
  | .supportCourse => !x.supports.all fun j => p.supportIs j fun y => y.course + 1 == x.course
  | .supportNoOverlap => !x.supports.all fun j => p.supportIs j fun y => p.overlaps y x
  | .courseOverlap =>
    p.slots.any fun e => e.1 != i && e.2.wall == x.wall && e.2.course == x.course && p.overlaps e.2 x
  | .neighbourLink => !(p.leftSound i x && p.rightSound i x)
  | .reachEmpty => x.reach = 0#8

theorem find?_cons_eq_ite {α : Type} (q : α → Bool) (a : α) (l : List α) :
    (a :: l).find? q = if q a then some a else l.find? q := by
  cases h : q a <;> simp [h]

/-- The tests are made in the order of the table of R144. -/
theorem Plan.auditSlot_eq_find? (p : Plan) (i : Nat) (x : Slot) :
    p.auditSlot i x = auditOrder.find? (p.auditTest i x) := by
  simp only [Plan.auditSlot, auditOrder, find?_cons_eq_ite, List.find?_nil, Plan.auditTest, decide_eq_true_eq]

/-- Each test is the check of the table of R144, those of the supports' records where every support has one. -/
theorem Plan.auditTest_iff (form : tableWf p.slots) {r : AuditFailure}
    (present : r = .supportCourse ∨ r = .supportNoOverlap → ¬ p.failsCheck i x .supportOtherWall) :
    p.auditTest i x r = true ↔ p.failsCheck i x r := by
  cases r with
  | typeUndefined => simp only [Plan.auditTest, Plan.failsCheck, Bool.not_eq_true']
  | supportOtherWall => exact Plan.failsCheck_supportOtherWall.symm
  | supportCourse => exact (Plan.failsCheck_supportCourse (present (.inl rfl))).symm
  | supportNoOverlap => exact (Plan.failsCheck_supportNoOverlap (present (.inr rfl))).symm
  | courseOverlap => exact (Plan.failsCheck_courseOverlap form).symm
  | neighbourLink => exact Plan.failsCheck_neighbourLink.symm
  | courseRange | courseZeroSupport | supportMissing | reachEmpty => exact decide_eq_true_iff

/-- The checks of the supports' records come after check 5, the place 4 of the order. -/
theorem four_lt_of_auditOrder {n : Nat} {r : AuditFailure} (place : auditOrder[n]? = some r)
    (ofRecords : r = .supportCourse ∨ r = .supportNoOverlap) : 4 < n := by
  by_contra early
  have first : ∀ m ≤ 4, auditOrder[m]? ≠ some .supportCourse ∧ auditOrder[m]? ≠ some .supportNoOverlap := by decide
  obtain ⟨noCourse, noOverlap⟩ := first n (Nat.le_of_not_lt early)
  obtain rfl | rfl := ofRecords
  · exact noCourse place
  · exact noOverlap place

theorem Plan.auditSlot_eq_none (form : tableWf p.slots) (passes : ∀ r, ¬ p.failsCheck i x r) :
    p.auditSlot i x = none := by
  rw [Plan.auditSlot_eq_find?, List.find?_eq_none]
  exact fun r _ => mt (Plan.auditTest_iff form fun _ => passes _).1 (passes r)

/-- The first check that a slot fails is the one reported. -/
theorem Plan.auditSlot_eq_some (form : tableWf p.slots) {n : Nat} {r : AuditFailure}
    (place : auditOrder[n]? = some r) (fails : p.failsCheck i x r)
    (first : ∀ m q, m < n → auditOrder[m]? = some q → ¬ p.failsCheck i x q) : p.auditSlot i x = some r := by
  have test {m : Nat} {q : AuditFailure} (hm : m ≤ n) (hq : auditOrder[m]? = some q) :
      p.auditTest i x q = true ↔ p.failsCheck i x q := by
    refine Plan.auditTest_iff form fun ofRecords => first 4 _ ?_ rfl
    exact Nat.lt_of_lt_of_le (four_lt_of_auditOrder hq ofRecords) hm
  obtain ⟨inOrder, atPlace⟩ := List.getElem?_eq_some_iff.1 place
  rw [Plan.auditSlot_eq_find?, List.find?_eq_some_iff_getElem]
  refine ⟨(test (Nat.le_refl n) place).2 fails, n, inOrder, atPlace, fun m hm => ?_⟩
  have listed := List.getElem?_eq_getElem (Nat.lt_trans hm inOrder)
  rw [Bool.not_eq_true', ← Bool.not_eq_true]
  exact mt (test (Nat.le_of_lt hm) listed).1 (first m _ hm listed)

end Checks

/-! ### The slots an audit has yet to visit (R143) -/

section AuditStep

variable {s : State} {c : AuditContext} {i : Nat} {x : Slot} {rest : SlotTable}

/-- The slots behind the one visited are those of the wall with a higher index. -/
theorem Plan.unaudited_tail (form : tableWf s.plan.slots) (visits : s.plan.unaudited c = (i, x) :: rest) :
    rest = s.plan.slots.filter fun e => e.2.wall = c.wall ∧ i < e.1 := by
  have sorted : tableSorted (s.plan.unaudited c) := by
    rw [Plan.unaudited_eq]
    exact tableSorted.sublist form.1 List.filter_sublist
  rw [visits, tableSorted_cons] at sorted
  have above : ∀ l ∈ c.last, l < i := by
    have visited : (i, x) ∈ s.plan.unaudited c := visits ▸ List.mem_cons_self
    rw [Plan.unaudited_eq, List.mem_filter, decide_eq_true_eq] at visited
    exact visited.2.2
  calc rest = ((i, x) :: rest).filter fun e => i < e.1 := by
        rw [List.filter_cons_of_neg (by simp), List.filter_eq_self.2]
        exact fun e he => decide_eq_true (sorted.1 e he)
    _ = s.plan.slots.filter fun e => e.2.wall = c.wall ∧ i < e.1 := by
        rw [← visits, Plan.unaudited_eq, List.filter_filter]
        refine List.filter_congr fun e _ => ?_
        rw [← Bool.decide_and, decide_eq_decide]
        constructor
        · rintro ⟨behind, wall, -⟩
          exact ⟨wall, behind⟩
        · rintro ⟨wall, behind⟩
          exact ⟨behind, wall, fun l hl => Nat.lt_trans (above l hl) behind⟩

theorem exec_auditStep (running : s.engine = .audit c) : exec .auditStep s = .next (s.auditStep c) := by
  simp only [exec, execAuditStep, running]

theorem State.auditStep_of_abort (pending : c.abortPending = true) :
    s.auditStep c = s.auditEnded .aborted (.auditAborted c.last (s.plan.unaudited c).length) := by
  rw [State.auditStep, if_pos pending, State.endAudit_eq]

theorem State.auditStep_of_pass (going : c.abortPending = false) (none_left : s.plan.unaudited c = []) :
    s.auditStep c = (s.modifyWall c.wall fun x => { x with audited := true }).auditEnded .ok
      (.auditPass (s.plan.slotsOf c.wall).length) := by
  simp only [State.auditStep, going, if_neg Bool.false_ne_true, none_left, State.endAudit_eq]

theorem State.auditStep_of_sound (going : c.abortPending = false) (visits : s.plan.unaudited c = (i, x) :: rest)
    (sound : s.plan.auditSlot i x = none) : s.auditStep c = { s with engine := .audit { c with last := some i } } := by
  simp only [State.auditStep, going, if_neg Bool.false_ne_true, visits, sound]

theorem State.auditStep_of_failure {r : AuditFailure} (going : c.abortPending = false)
    (visits : s.plan.unaudited c = (i, x) :: rest) (fails : s.plan.auditSlot i x = some r) :
    s.auditStep c = s.auditEnded .auditFail (.auditFail r i rest.length) := by
  simp only [State.auditStep, going, if_neg Bool.false_ne_true, visits, fails, State.endAudit_eq]

end AuditStep

/-! ### Taking an Audit, and Abort (R143, R147) -/

theorem exec_audit {s : State} {w : Byte} (ht : s.takes .P .read) (hw : w.toNat ≤ 31) :
    exec (.audit w) s = .next (
      if (s.plan.wall w.toNat).state = .free then s.refuse .P 0x0F .badState
      else ({ s with engine := .audit ⟨w.toNat, none, false⟩ } : State).release .P) :=
  State.next_withWall_below ht hw

/-- Settles O55: the wall's slots still to visit decide a step, and the first of them is judged by the first check it
fails. -/
theorem auditAndAbort : Obligations.AuditAndAbort := by
  refine ⟨fun s w ht => ⟨State.next_withWall_above ht, fun hw free => ?_, fun hw used => ?_⟩, ?_,
    fun s => ⟨fun idle => ?_, fun c running => ?_, fun c running => ?_⟩⟩
  -- Audit
  · rw [exec_audit ht hw, if_pos free]
  · rw [exec_audit ht hw, if_neg used]
  -- a step of it
  · rintro s c _ running form rfl
    rw [exec_auditStep running, ← Plan.unaudited_eq]
    refine ⟨fun pending => ?_, fun going => ⟨fun none_left => ?_, fun i x head => ?_⟩⟩
    · rw [State.auditStep_of_abort pending]
    · rw [State.auditStep_of_pass going none_left]
      rfl
    · obtain ⟨rest, visits⟩ := List.head?_eq_some_iff.1 head
      refine ⟨fun passes => ?_, fun n r place fails first => ?_⟩
      · rw [State.auditStep_of_sound going visits (Plan.auditSlot_eq_none form passes)]
      · rw [State.auditStep_of_failure going visits (Plan.auditSlot_eq_some form place fails first),
          Plan.unaudited_tail form visits]
  -- Abort
  · simp only [exec, execAbort, idle]
  · simp only [exec, execAbort, running]
  · simp only [exec, execAbort, running]

end Sys2Proof.Machine

/-! PROOFS of the Authority Unit (spec/08): Unlock and Set Code (R151, R153), and Lock, Freeze and Set EPL (R152, R154,
R155). -/

namespace Sys2Proof.Machine

open Sys2Proof

/-! ### The tests of an Unlock on the unit (R151) -/

section TryUnlock

variable {a : Authority} {code : EngineerCode}

theorem Authority.tryUnlock_of_frozen (frozen : a.frozen = true) : a.tryUnlock code = (.frozen, a) := if_pos frozen

theorem Authority.tryUnlock_of_engineer (live : a.frozen = false) (engineer : a.level = .engineer) :
    a.tryUnlock code = (.ok, a) := by
  simp only [Authority.tryUnlock, live, Bool.false_eq_true, if_false, if_pos engineer]

/-- An Operator unit that is not frozen goes on to its counter and then to the code. -/
theorem Authority.tryUnlock_of_operator (live : a.frozen = false) (operator : a.level = .operator) :
    a.tryUnlock code =
      if a.attempts = 0 then (.exhausted, a)
      else if a.code = some code then (.ok, { a with level := .engineer })
      else (.authority, { a with attempts := a.attempts - 1 }) := by
  simp only [Authority.tryUnlock, live, operator, Bool.false_eq_true, reduceCtorEq, if_false]

theorem Authority.tryUnlock_of_exhausted (live : a.frozen = false) (operator : a.level = .operator)
    (spent : a.attempts = 0) : a.tryUnlock code = (.exhausted, a) := by
  rw [tryUnlock_of_operator live operator, if_pos spent]

theorem Authority.tryUnlock_of_match (live : a.frozen = false) (operator : a.level = .operator)
    (left : 0 < a.attempts) (same : a.code = some code) :
    a.tryUnlock code = (.ok, { a with level := .engineer }) := by
  rw [tryUnlock_of_operator live operator, if_neg left.ne', if_pos same]

theorem Authority.tryUnlock_of_mismatch (live : a.frozen = false) (operator : a.level = .operator)
    (left : 0 < a.attempts) (differs : a.code ≠ some code) :
    a.tryUnlock code = (.authority, { a with attempts := a.attempts - 1 }) := by
  rw [tryUnlock_of_operator live operator, if_neg left.ne', if_neg differs]

end TryUnlock

/-! ### Lock on the unit (R152) -/

theorem Authority.lock_of_code {a : Authority} (stored : a.code ≠ none) : a.lock = { a with level := .operator } :=
  if_pos (Option.isSome_iff_ne_none.2 stored)

theorem Authority.lock_of_no_code {a : Authority} (absent : a.code = none) : a.lock = a := by
  simp only [Authority.lock, absent, Option.isSome_none, Bool.false_eq_true, if_false]

/-! ### The bytes of Set Code and Set EPL (section 10.5) -/

section Bytes

variable {b : Byte}

theorem flagOf_of_le_one (h : b.toNat ≤ 1) : flagOf b = some (decide (b = 1#8)) := by
  obtain rfl | rfl : b = 0#8 ∨ b = 1#8 := by bv_omega
  · rfl
  · rfl

theorem levelOf_of_above_one (h : 1 < b.toNat) : levelOf b = none := by
  unfold levelOf
  split
  · omega
  · omega
  · rfl

end Bytes

/-! ### The commands as port P takes them (R150) -/

section AuthorityCommands

variable {s : State} {code : EngineerCode} {b : Byte}

/-- The answer to an Unlock carries the level and the counter of the unit it leaves. -/
theorem exec_unlock (ht : s.takes .P .authority) {st : Status} {a : Authority}
    (outcome : s.authority.tryUnlock code = (st, a)) :
    exec (.unlock code) s
      = .next (({ s with authority := a } : State).reply .P 0x40 st (.unlock a.level a.attempts)) := by
  simp only [exec, execUnlock, State.onPlanPort_of_takes ht, outcome]

/-- An Unlock that leaves the unit as it stands leaves the whole state so but for its answer. -/
theorem exec_unlock_of_unchanged (ht : s.takes .P .authority) {st : Status}
    (outcome : s.authority.tryUnlock code = (st, s.authority)) :
    exec (.unlock code) s = .next (s.reply .P 0x40 st (.unlock s.authority.level s.authority.attempts)) :=
  exec_unlock ht outcome

theorem exec_lock (ht : s.takes .P .authority) : exec .lock s
    = .next (({ s with authority := s.authority.lock } : State).reply .P 0x41 .ok (.level s.authority.lock.level)) := by
  simp only [exec, execLock, State.onPlanPort_of_takes ht]

theorem exec_freeze (ht : s.takes .P .authority) : exec .freeze s
    = .next (({ s with authority := { s.authority with frozen := true } } : State).refuse .P 0x43 .ok) := by
  simp only [exec, execFreeze, State.onPlanPort_of_takes ht]

theorem exec_setCode_of_frozen (ht : s.takes .P .authority) (frozen : s.authority.frozen = true) :
    exec (.setCode b code) s = .next (s.refuse .P 0x42 .frozen) := by
  simp only [exec, execSetCode, State.onPlanPort_of_takes ht, if_pos frozen]

theorem exec_setCode_of_operator (ht : s.takes .P .authority) (live : s.authority.frozen = false)
    (operator : s.authority.level = .operator) :
    exec (.setCode b code) s = .next (s.refuse .P 0x42 .authority) := by
  simp only [exec, execSetCode, State.onPlanPort_of_takes ht, live, Bool.false_eq_true, if_false, if_pos operator]

theorem exec_setCode_of_engineer (ht : s.takes .P .authority) (live : s.authority.frozen = false)
    (engineer : s.authority.level = .engineer) (inRange : b.toNat ≤ 1) :
    exec (.setCode b code) s = .next (({ s with authority :=
      { s.authority with code := if b = 1#8 then some code else none } } : State).refuse .P 0x42 .ok) := by
  simp only [exec, execSetCode, State.onPlanPort_of_takes ht, live, engineer, Bool.false_eq_true, reduceCtorEq,
    if_false, flagOf_of_le_one inRange, decide_eq_true_eq]

theorem exec_setEpl_of_level (ht : s.takes .P .planShaping) {l : Level} (names : levelOf b = some l) :
    exec (.setEpl b) s
      = .next (({ s with authority := { s.authority with epl := l } } : State).refuse .P 0x3B .ok) := by
  simp only [exec, execSetEpl, State.onPlanPort_of_takes ht, names]

theorem exec_setEpl_of_no_level (ht : s.takes .P .planShaping) (names : levelOf b = none) :
    exec (.setEpl b) s = .next (s.refuse .P 0x3B .badValue) := by
  simp only [exec, execSetEpl, State.onPlanPort_of_takes ht, names]

end AuthorityCommands

/-- Settles O17, test by test; an Unlock changes the unit at its last test alone, where the code is compared. -/
theorem unlockAndSetCode : Obligations.UnlockAndSetCode := by
  refine fun s code ht => ⟨fun frozen => ?_, fun live engineer => ?_, fun live operator spent => ?_,
    fun live operator left => ⟨fun same => ?_, fun differs => ?_⟩, fun b =>
      ⟨exec_setCode_of_frozen ht, exec_setCode_of_operator ht, exec_setCode_of_engineer ht⟩⟩
  · exact exec_unlock_of_unchanged ht (Authority.tryUnlock_of_frozen frozen)
  · rw [exec_unlock_of_unchanged ht (Authority.tryUnlock_of_engineer live engineer), engineer]
  · rw [exec_unlock_of_unchanged ht (Authority.tryUnlock_of_exhausted live operator spent), operator, spent]
  · exact exec_unlock ht (Authority.tryUnlock_of_match live operator left same)
  · rw [← operator]
    exact exec_unlock ht (Authority.tryUnlock_of_mismatch live operator left differs)

/-- Settles O18: Lock by whether a code is stored, Set EPL by the level its byte names. -/
theorem lockFreezeAndSetEpl : Obligations.LockFreezeAndSetEpl := by
  refine fun s => ⟨fun ht => ⟨fun stored => ?_, fun absent => ?_, exec_freeze ht⟩, fun ht =>
    ⟨exec_setEpl_of_level ht rfl, exec_setEpl_of_level ht rfl, fun b above => ?_⟩⟩
  · rw [exec_lock ht, Authority.lock_of_code stored]
  · rw [exec_lock ht, Authority.lock_of_no_code absent]
  · exact exec_setEpl_of_no_level ht (levelOf_of_above_one above)

end Sys2Proof.Machine

/-! PROOFS of the watches and event sources (spec/09): Watch Set and Watch Read (R158, R161), Event Fetch and Event
Mask (R164, R165), and the attention lines (R163). -/

namespace Sys2Proof.Machine

open Sys2Proof

/-! ### The lowest source that is latched and unmasked (R164) -/

section LowestSource

variable {e : Events} {p : Port} {k : Nat}

theorem Events.vector_eq_zero
    (quiet : ∀ k : Nat, ¬ ((e.latches p)[k]? = some true ∧ (e.masks p)[k]? = some false)) : e.vector p = 0 := by
  have none_found : (e.eligible p).findIdx? id = none :=
    Option.eq_none_iff_forall_ne_some.2 fun k found =>
      quiet k ((Events.eligible_iff e p k).1 (((findIdx_true_iff _).2 k).1 found).1)
  rw [Events.vector, none_found]

theorem Events.vector_eq_succ (latched : (e.latches p)[k]? = some true) (unmasked : (e.masks p)[k]? = some false)
    (lowest : ∀ j < k, ¬ ((e.latches p)[j]? = some true ∧ (e.masks p)[j]? = some false)) : e.vector p = k + 1 := by
  have found : (e.eligible p).findIdx? id = some k :=
    ((findIdx_true_iff _).2 k).2 ⟨(Events.eligible_iff e p k).2 ⟨latched, unmasked⟩,
      fun j below eligible => lowest j below ((Events.eligible_iff e p j).1 eligible)⟩
  rw [Events.vector, found]

end LowestSource

/-! ### Clearing one latch (R162, R164) -/

section ClearLatch

variable (e : Events)

/-- Vector codes 4 to 11 of port P are Watch 0 to Watch 7. -/
theorem Events.clearLatch_watch {k : Nat} (h : k < Config.watchCount) :
    e.clearLatch .P (k + 4)
      = { e with watches := e.watches.setIfInBounds k { e.watches[k] with latched := false } } := by
  simp only [Events.clearLatch, Nat.add_sub_cancel, Vector.getElem?_eq_getElem h]

/-- A clear on port P writes latches of port P alone. -/
theorem Events.clearLatch_P_frame : ∀ n : Nat, ∃ planFault suspect wallComplete watches,
    e.clearLatch .P n = { e with planFault, suspect, wallComplete, watches }
  | 1 | 2 | 3 => ⟨_, _, _, _, rfl⟩
  | 0 | n + 4 => by
    simp only [Events.clearLatch]
    split <;> exact ⟨_, _, _, _, rfl⟩

/-- A clear on port M writes latches of port M alone. -/
theorem Events.clearLatch_M_frame : ∀ n : Nat, ∃ expiry gateChange stale,
    e.clearLatch .M n = { e with expiry, gateChange, stale }
  | 0 | 1 | 2 | 3 | _ + 4 => ⟨_, _, _, rfl⟩

/-- Behind its three own latches port P lists those of the watches (R162). -/
theorem Events.watch_of_source {k : Nat} (source : k + 3 < (e.latches .P).length) : k < Config.watchCount := by
  simpa [Events.latches] using source

theorem Events.latches_clearLatch {p : Port} {k : Nat} (source : k < (e.latches p).length) :
    (e.clearLatch p (k + 1)).latches p = (e.latches p).set k false := by
  cases p with
  | P =>
    match k, source with
    | 0, _ | 1, _ | 2, _ => rfl
    | k + 3, source =>
      have watch := e.watch_of_source source
      simp [Events.clearLatch_watch e watch, Events.latches, Vector.toList_setIfInBounds, List.map_set]
  | M =>
    match k, source with
    | 0, _ | 1, _ | 2, _ => rfl

/-- The latches of the other port stand. -/
theorem Events.latches_clearLatch_other {p q : Port} (other : q ≠ p) (n : Nat) :
    (e.clearLatch p n).latches q = e.latches q := by
  obtain ⟨_, _, _, _, frameP⟩ := e.clearLatch_P_frame n
  obtain ⟨_, _, _, frameM⟩ := e.clearLatch_M_frame n
  cases p <;> cases q
  · exact absurd rfl other
  · rw [frameP]; rfl
  · rw [frameM]; rfl
  · exact absurd rfl other

theorem Events.masks_clearLatch (p : Port) (n : Nat) (q : Port) : (e.clearLatch p n).masks q = e.masks q := by
  obtain ⟨_, _, _, _, frameP⟩ := e.clearLatch_P_frame n
  obtain ⟨_, _, _, frameM⟩ := e.clearLatch_M_frame n
  cases p
  · rw [frameP]; cases q <;> rfl
  · rw [frameM]; cases q <;> rfl

/-- Apart from their latches the watches stand. -/
theorem Events.watches_clearLatch {p : Port} {k : Nat} (source : k < (e.latches p).length) :
    ((e.clearLatch p (k + 1)).watches.map fun w => { w with latched := false })
      = e.watches.map fun w => { w with latched := false } := by
  cases p with
  | P =>
    match k, source with
    | 0, _ | 1, _ | 2, _ => rfl
    | k + 3, source =>
      have watch := e.watch_of_source source
      rw [Events.clearLatch_watch e watch, Vector.map_setIfInBounds]
      ext j hj : 1
      by_cases same : k = j
      · subst same
        simp only [Vector.getElem_setIfInBounds_self, Vector.getElem_map]
      · rw [Vector.getElem_setIfInBounds_ne hj same]
  | M =>
    obtain ⟨_, _, _, frame⟩ := e.clearLatch_M_frame (k + 1)
    rw [frame]

end ClearLatch

/-! ### Event Fetch (R164) -/

section EventFetch

variable {s : State} {p : Port}

theorem exec_eventFetch_of_none (ht : s.takes p .read) (vector : s.events.vector p = 0) :
    exec (.eventFetch p) s
      = .next (s.reply p 0x0A .ok (.event 0 (s.events.latches p) (s.events.masks p))) := by
  simp only [exec, execEventFetch, State.onPort_of_takes ht, vector, if_true]

theorem exec_eventFetch_of_source (ht : s.takes p .read) {k : Nat} (vector : s.events.vector p = k + 1) :
    exec (.eventFetch p) s
      = .next (({ s with events := s.events.clearLatch p (k + 1) } : State).reply p 0x0A .ok
          (.event (k + 1) ((s.events.clearLatch p (k + 1)).latches p) ((s.events.clearLatch p (k + 1)).masks p))) := by
  simp only [exec, execEventFetch, State.onPort_of_takes ht, vector, if_neg k.succ_ne_zero]

end EventFetch

/-- Settles O11: the code returned is that of the lowest source, and what its clear writes is that source's latch. -/
theorem eventFetchTakesTheLowestSource : Obligations.EventFetchTakesTheLowestSource := by
  refine fun s p ht => ⟨fun quiet => ?_, fun k latched unmasked lowest => ?_⟩
  · exact exec_eventFetch_of_none ht (Events.vector_eq_zero quiet)
  · have source : k < (s.events.latches p).length := (List.getElem?_eq_some_iff.1 latched).1
    exact ⟨s.events.clearLatch p (k + 1),
      exec_eventFetch_of_source ht (Events.vector_eq_succ latched unmasked lowest),
      s.events.latches_clearLatch source, fun q other => s.events.latches_clearLatch_other other _,
      s.events.masks_clearLatch p _, s.events.watches_clearLatch source⟩

/-! ### Event Mask (R165) and the attention lines (R163) -/

theorem exec_eventMask {s : State} {p : Port} (ht : s.takes p .operational) (m : Half) :
    exec (.eventMask p m) s = .next (({ s with events := s.events.setMasks m p } : State).reply p 0x0B .ok
      (.masks ((s.events.setMasks m p).masks p) ((s.events.setMasks m p).latches p))) := by
  simp only [exec, execEventMask, State.onPort_of_takes ht]

theorem map_getLsbD_setWidth (m : Half) (n : Nat) :
    ((List.range n).map fun k => (m.setWidth n).getLsbD k) = (List.range n).map m.getLsbD := by
  refine List.map_congr_left fun k below => ?_
  simp only [BitVec.getLsbD_setWidth, List.mem_range.1 below, decide_true, Bool.true_and]

/-- A port's attention line is asserted exactly while one of its sources is eligible. -/
theorem State.attention_iff (s : State) (p : Port) : s.attention p = true ↔
    ∃ k : Nat, (s.events.latches p)[k]? = some true ∧ (s.events.masks p)[k]? = some false := by
  simp only [State.attention, List.any_eq_true, id, exists_eq_right, List.mem_iff_getElem?, Events.eligible_iff]

/-- Settles O12: a mask command replaces one field of the unit, and no latch is read from it. -/
theorem eventMaskAndAttention : Obligations.EventMaskAndAttention :=
  ⟨fun s m ht => ⟨s.events.setMasks m .P, exec_eventMask ht m, map_getLsbD_setWidth m 11, rfl⟩,
    fun s m => ⟨s.events.setMasks m .M, exec_eventMask (p := .M) trivial m, map_getLsbD_setWidth m 3, rfl⟩,
    State.attention_iff⟩

/-! ### The bytes of Watch Set (R158) -/

section WatchBytes

variable {b : Byte} {limit : Nat}

theorem anyOf_of_inRange (h : b.toNat < limit ∨ b = 0xFF#8) :
    anyOf b limit = some (if b = 0xFF#8 then none else some b.toNat) := by
  unfold anyOf
  by_cases any : b = 0xFF#8
  · rw [if_pos any, if_pos any]
  · rw [if_neg any, if_neg any, if_pos (h.resolve_right any)]

theorem anyOf_of_above (above : limit ≤ b.toNat) (named : b ≠ 0xFF#8) : anyOf b limit = none := by
  rw [anyOf, if_neg named, if_neg above.not_gt]

theorem watchModeOf_of_le_one (h : b.toNat ≤ 1) :
    watchModeOf b = some (if b = 1#8 then .every else .once) := by
  obtain rfl | rfl : b = 0#8 ∨ b = 1#8 := by bv_omega
  · rfl
  · rfl

theorem watchModeOf_of_above_one (h : 1 < b.toNat) : watchModeOf b = none := by
  unfold watchModeOf
  split
  · omega
  · omega
  · rfl

theorem enteredStateOf_of_code {st : SlotState} (names : st.code = b.toNat) (present : st ≠ .empty)
    (presented : st ≠ .planned) : enteredStateOf b = some st := by
  cases st with
  | empty => exact absurd rfl present
  | planned => exact absurd rfl presented
  | _ => simp only [enteredStateOf, slotStateOf, ← names, SlotState.code]

theorem slotStateOf_of_above (h : 7 < b.toNat) : slotStateOf b = none := by
  unfold slotStateOf
  split
  case h_9 => rfl
  all_goals omega

theorem enteredStateOf_of_outside (h : b.toNat < 2 ∨ 7 < b.toNat) : enteredStateOf b = none := by
  obtain low | above := h
  · obtain rfl | rfl : b = 0#8 ∨ b = 1#8 := by bv_omega
    · rfl
    · rfl
  · rw [enteredStateOf, slotStateOf_of_above above]

end WatchBytes

/-! ### The record a Watch Set writes (R158) -/

section WatchRecord

variable {f : WatchFields}

/-- One field out of its range leaves no record. -/
theorem watchRecordOf_of_outside (outside : flagOf f.enabled = none ∨ anyOf f.wall Config.wallCount = none
    ∨ anyOf f.course 64 = none ∨ enteredStateOf f.state = none ∨ watchModeOf f.mode = none) :
    watchRecordOf f = none := by
  unfold watchRecordOf
  split
  case h_1 flag walls courses state mode =>
    simp only [flag, walls, courses, state, mode, reduceCtorEq, or_self] at outside
  case h_2 => rfl

theorem watchRecordOf_of_fields {enabled : Bool} {wall course : Option Nat} {st : SlotState} {mode : WatchMode}
    (flag : flagOf f.enabled = some enabled) (walls : anyOf f.wall Config.wallCount = some wall)
    (courses : anyOf f.course 64 = some course) (state : enteredStateOf f.state = some st)
    (modes : watchModeOf f.mode = some mode) :
    watchRecordOf f = some ⟨enabled, wall, course, st, mode, false, 0, none, none⟩ := by
  simp only [watchRecordOf, flag, walls, courses, state, modes]

end WatchRecord

/-! ### Watch Set and Watch Read as port P takes them (R158, R161) -/

theorem lt_watchCount_iff {n : Nat} : n < Config.watchCount ↔ n ≤ 7 := Nat.lt_succ_iff

section WatchCommands

variable {s : State} {f : WatchFields}

theorem exec_watchSet_of_no_watch (ht : s.takes .P .operational) (above : 7 < f.number.toNat) :
    exec (.watchSet f) s = .next (s.refuse .P 0x0E .badAddress) := by
  simp only [exec, execWatchSet, State.onPlanPort_of_takes ht, lt_watchCount_iff, if_neg above.not_ge]

theorem exec_watchSet_of_no_record (ht : s.takes .P .operational) (named : f.number.toNat ≤ 7)
    (outside : watchRecordOf f = none) : exec (.watchSet f) s = .next (s.refuse .P 0x0E .badValue) := by
  simp only [exec, execWatchSet, State.onPlanPort_of_takes ht, lt_watchCount_iff, if_pos named, outside]

theorem exec_watchSet_of_record (ht : s.takes .P .operational) (named : f.number.toNat ≤ 7) {w : Watch}
    (record : watchRecordOf f = some w) :
    exec (.watchSet f) s = .next (({ s with events :=
      { s.events with watches := s.events.watches.setIfInBounds f.number.toNat w } } : State).reply
        .P 0x0E .ok (.watch w)) := by
  simp only [exec, execWatchSet, State.onPlanPort_of_takes ht, lt_watchCount_iff, if_pos named, record]

/-- The response carries the watches as they stood before an auto-clear. -/
theorem exec_watchRead (ht : s.takes .P .read) : exec .watchRead s
    = .next ((if s.options.autoClear = 1 then { s with events := s.events.clearWatches } else s).reply .P 0x0D .ok
        (.watches s.events.watches)) := by
  simp only [exec, execWatchRead, State.onPlanPort_of_takes ht]

end WatchCommands

theorem Events.clearWatches_eq (e : Events) :
    e.clearWatches = { e with watches := e.watches.map fun w => { w with latched := false } } := by
  rw [Events.clearWatches, eachWatch_eq]

/-- Settles O13, test by test: the watch number, then the range of each field, then the record the bytes give. -/
theorem watchSetWritesTheRecord : Obligations.WatchSetWritesTheRecord := by
  refine fun s f ht flag => ⟨exec_watchSet_of_no_watch ht, fun named outside => ?_,
    fun named wall course mode st names present presented => ⟨_, rfl, ?_⟩⟩
  · refine exec_watchSet_of_no_record ht named (watchRecordOf_of_outside ?_)
    obtain ⟨above, other⟩ | ⟨above, other⟩ | unnamed | unnamed | above := outside
    · exact .inr (.inl (anyOf_of_above above other))
    · exact .inr (.inr (.inl (anyOf_of_above above other)))
    · exact .inr (.inr (.inr (.inl (enteredStateOf_of_outside (.inl unnamed)))))
    · exact .inr (.inr (.inr (.inl (enteredStateOf_of_outside (.inr unnamed)))))
    · exact .inr (.inr (.inr (.inr (watchModeOf_of_above_one above))))
  · exact exec_watchSet_of_record ht named (watchRecordOf_of_fields (flagOf_of_le_one flag)
      (anyOf_of_inRange (wall.imp_left Nat.lt_succ_of_le)) (anyOf_of_inRange (course.imp_left Nat.lt_succ_of_le))
      (enteredStateOf_of_code names present presented) (watchModeOf_of_le_one mode))

/-- Settles O14, by whether auto-clear is on. -/
theorem watchReadShowsAndClears : Obligations.WatchReadShowsAndClears := by
  refine fun s ht => ⟨fun off => ?_, fun on => ?_⟩
  · rw [exec_watchRead ht, if_neg off]
  · rw [exec_watchRead ht, if_pos on, Events.clearWatches_eq]

end Sys2Proof.Machine

/-! PROOFS of Status (spec/10): what each byte of its body shows of the state, then the body as either port
returns it (R175). -/

namespace Sys2Proof.Machine

open Sys2Proof

/-! ### The bytes of a Status response (R175) -/

/-- A flag's byte is 1 exactly where what the flag stands for holds. -/
theorem flagByte_of_iff {b : Bool} {c : Prop} [Decidable c] (h : b = true ↔ c) :
    flagByte b = [if c then 1#8 else 0#8] := by
  cases b with
  | false =>
    rw [if_neg (mt h.2 Bool.false_ne_true)]
    rfl
  | true =>
    rw [if_pos (h.1 rfl)]
    rfl

theorem u8_code_level (l : Level) : u8 l.code = [if l = .engineer then 1#8 else 0#8] := by
  cases l <;> rfl

theorem u8_code_gate (g : Gate) : u8 g.code = [if g = .opened then 1#8 else 0#8] := by
  cases g <;> rfl

/-- An Unset clock shows four bytes of 0 behind its flag. -/
theorem optTime_eq (t : Option Nat) :
    optTime t = [if t.isSome then 1#8 else 0#8] ++ wordBytes (BitVec.ofNat 32 (t.getD 0)) := by
  cases t <;> rfl

/-- Port M is shown level 0 whatever the level. -/
theorem State.u8_code_statusLevel (s : State) (p : Port) :
    u8 (s.statusLevel p).code = [if p = .P ∧ s.authority.level = .engineer then 1#8 else 0#8] := by
  cases p with
  | M => rfl
  | P => simp only [State.statusLevel, u8_code_level, true_and]

theorem State.held_iff (s : State) : s.held = true ↔ s.dispatcher.hold = true ∧ s.line = [] := by
  rw [State.held_eq, Bool.and_eq_true, decide_eq_true_eq]

theorem State.busy_iff (s : State) : s.busy = true ↔ s.engine ≠ .idle := by
  rw [ne_eq, ← State.busy_eq_false, Bool.not_eq_false]

/-! ### Status as either port takes it -/

theorem exec_status {s : State} {p : Port} (ht : s.takes p .read) :
    exec (.status p) s = .next (s.reply p 0x09 .ok (.status (s.statusBody p))) := by
  simp only [exec, execStatus, State.onPort_of_takes ht]

/-- Settles O10: the response carries the body of the state, whose bytes are read off field by field. -/
theorem statusReportsTheState : Obligations.StatusReportsTheState := by
  refine fun s p ht => ⟨s.statusBody p, exec_status ht, rfl, ?_⟩
  simp only [Body.bytes, statusBytes, State.statusBody, State.u8_code_statusLevel, optTime_eq, u8_code_gate]
  rw [flagByte_of_iff s.held_iff, flagByte_of_iff s.busy_iff]
  simp only [flagByte_of_iff Iff.rfl, List.append_assoc, List.cons_append, List.nil_append]
  cases s.dispatcher.station <;> rfl

end Sys2Proof.Machine

/-! PROOFS of what a command can come to. A command changes the state by a few small deeds: `Quiet` ones, which leave
the ready queue at its law, `Disturb` ones, which may not, and `Settles` ones, which bring it back. `exec_does` says
once that every command is its address (`Addressed`), a way of such deeds, and its answer (`Answered`); each law of the
part is then shown deed by deed. -/

namespace Sys2Proof.Machine

open Sys2Proof

/-! ### Inside the ports -/

/-- Two states agree but for their ports and what waits outside the part. -/
def State.SameInside (s t : State) : Prop :=
  t = { s with portP := t.portP, portM := t.portM, inputs := t.inputs, pending := t.pending }

theorem State.SameInside.refl (s : State) : s.SameInside s := rfl

theorem State.SameInside.trans {s t u : State} (h : s.SameInside t) (k : t.SameInside u) : s.SameInside u := by
  unfold State.SameInside at *
  rw [k, h]

theorem State.sameInside_setPort (s : State) (p : Port) (x : PortState) : s.SameInside (s.setPort p x) := by
  cases p <;> rfl

/-! ### What watches and latches may come to -/

/-- What a watch may come to by any command but Watch Set and power-on reset: its fields stand, its count does not
fall, and it is not enabled anew (R157 to R159). -/
structure Watch.Leads (w v : Watch) : Prop where
  wall : v.wall = w.wall
  course : v.course = w.course
  entered : v.entered = w.entered
  mode : v.mode = w.mode
  count : w.count ≤ v.count
  enabled : v.enabled = true → w.enabled = true
  range : w.count ≤ Config.watchCountMax → v.count ≤ Config.watchCountMax

theorem Watch.Leads.refl (w : Watch) : w.Leads w := ⟨rfl, rfl, rfl, rfl, le_refl _, id, id⟩

theorem Watch.Leads.trans {w v u : Watch} (h : w.Leads v) (k : v.Leads u) : w.Leads u :=
  ⟨k.wall.trans h.wall, k.course.trans h.course, k.entered.trans h.entered, k.mode.trans h.mode,
    h.count.trans k.count, h.enabled ∘ k.enabled, k.range ∘ h.range⟩

theorem Watch.leads_unlatched (w : Watch) : w.Leads { w with latched := false } :=
  ⟨rfl, rfl, rfl, rfl, le_refl _, id, id⟩

theorem Watch.leads_record (w : Watch) (i : Nat) (time : Option Nat) : w.Leads (w.record i time) where
  wall := rfl
  course := rfl
  entered := rfl
  mode := rfl
  count := by simp only [Watch.record]; split <;> omega
  enabled := fun h => by simp only [Watch.record, Bool.and_eq_true] at h; exact h.1
  range := fun h => by simp only [Watch.record]; split <;> omega

/-- Every watch of the unit comes to one it may come to. -/
def Events.Leads (e d : Events) : Prop :=
  ∀ (k : Nat) (w v : Watch), e.watches[k]? = some w → d.watches[k]? = some v → w.Leads v

/-- The watches stand. -/
theorem Events.leads_of_watches {e d : Events} (h : d.watches = e.watches) : e.Leads d := by
  intro k w v hw hv
  rw [h, hw] at hv
  cases hv
  exact Watch.Leads.refl w

theorem Events.Leads.refl (e : Events) : e.Leads e := Events.leads_of_watches rfl

theorem Events.Leads.trans {e d c : Events} (h : e.Leads d) (k : d.Leads c) : e.Leads c := by
  intro n w u hw hu
  have hn : n < Config.watchCount := by
    by_contra hn
    rw [Vector.getElem?_eq_none (by omega)] at hw
    cases hw
  exact (h n w _ hw (Vector.getElem?_eq_getElem hn)).trans (k n _ u (Vector.getElem?_eq_getElem hn) hu)

/-- Each watch changes by a rule that leads on. -/
theorem Events.leads_eachWatch {e d : Events} {f : Watch → Watch} (hf : ∀ w : Watch, w.Leads (f w))
    (h : d.watches = eachWatch f e.watches) : e.Leads d := by
  intro k w v hw hv
  rw [h, eachWatch_eq, Vector.getElem?_map, hw] at hv
  cases hv
  exact hf w

theorem Events.leads_present (i : Nat) (x : Slot) (st : SlotState) (time : Option Nat) (e : Events) :
    e.Leads (e.present i x st time) := by
  refine Events.leads_eachWatch (f := fun w => if w.fits x st then w.record i time else w) (fun w => ?_) rfl
  split
  · exact w.leads_record i time
  · exact Watch.Leads.refl w

theorem Events.leads_clearWatches (e : Events) : e.Leads e.clearWatches :=
  Events.leads_eachWatch Watch.leads_unlatched rfl

/-- One latch cleared (R164). -/
theorem Events.leads_clearLatch (e : Events) (p : Port) (n : Nat) : e.Leads (e.clearLatch p n) := by
  cases p with
  | M =>
    obtain ⟨expiry, gateChange, stale, h⟩ := e.clearLatch_M_frame n
    rw [h]
    exact Events.leads_of_watches rfl
  | P =>
    unfold Events.clearLatch
    split
    · exact Events.leads_of_watches rfl
    · exact Events.leads_of_watches rfl
    · exact Events.leads_of_watches rfl
    · split
      · exact Events.Leads.refl e
      · rename_i m _ _ _ w hw
        intro k v u hv hu
        dsimp only at hu
        rw [Vector.getElem?_setIfInBounds] at hu
        split at hu
        · rename_i hk
          subst hk
          rw [hv] at hw
          split at hu
          · cases hu
            cases hw
            exact Watch.leads_unlatched _
          · cases hu
        · rw [hv] at hu
          cases hu
          exact Watch.Leads.refl v
    all_goals exact Events.leads_of_watches rfl

/-- A slot is presented: nothing moves but the watches. -/
theorem State.present_frame (s : State) (i : Nat) (st : SlotState) :
    ∃ e, s.events.Leads e ∧ s.present i st = { s with events := e } := by
  unfold State.present
  cases s.plan.slot? i with
  | none => exact ⟨s.events, Events.Leads.refl _, rfl⟩
  | some x => exact ⟨_, s.events.leads_present i x st s.clock, rfl⟩

theorem State.enter_frame (s : State) (i : Nat) (st : SlotState) (f : Slot → Slot) :
    ∃ e, s.events.Leads e
      ∧ s.enter i st f = { s with plan := s.plan.modifySlot i fun x => { f x with state := st }, events := e } := by
  obtain ⟨e, he, h⟩ := (s.modifySlot i fun x => { f x with state := st }).present_frame i st
  exact ⟨e, he, h⟩

/-! ### What judgement leaves -/

/-- What a judgement may move, whatever the form of the table: the slots, the watches and the queue. -/
def State.JudgedInto (s t : State) : Prop :=
  ∃ slots queue events, s.events.Leads events ∧ t = { s with
    plan := { s.plan with slots := slots }
    dispatcher := { s.dispatcher with queue := queue }
    events := events }

theorem State.JudgedInto.refl (s : State) : s.JudgedInto s :=
  ⟨s.plan.slots, s.dispatcher.queue, s.events, Events.Leads.refl _, rfl⟩

theorem State.JudgedInto.trans {s t u : State} (h : s.JudgedInto t) (k : t.JudgedInto u) : s.JudgedInto u := by
  obtain ⟨slots, queue, events, he, rfl⟩ := h
  obtain ⟨slots', queue', events', he', rfl⟩ := k
  exact ⟨slots', queue', events', he.trans he', rfl⟩

theorem State.judgedInto_judge (s : State) (i : Nat) : s.JudgedInto (s.judge i) := by
  unfold State.judge
  split
  · exact .refl s
  · split
    · split
      · obtain ⟨e, he, h⟩ := s.enter_frame i .ready id
        exact ⟨_, s.dispatcher.queue, e, he, h⟩
      · exact .refl s
    · split
      · exact .refl s
      · exact ⟨_, s.dispatcher.queue, s.events, Events.Leads.refl _, rfl⟩
    · exact .refl s

theorem State.judgedInto_foldl (ids : List Nat) (s : State) : s.JudgedInto (ids.foldl State.judge s) := by
  induction ids generalizing s with
  | nil => exact .refl s
  | cons i ids ih => exact (s.judgedInto_judge i).trans (ih (s.judge i))

theorem State.judgedInto_rejudge (s : State) (ids : List Nat) : s.JudgedInto (s.rejudge ids) :=
  (State.judgedInto_foldl _ s).trans
    ⟨_, _, _, Events.Leads.refl _, rfl⟩

section
variable {s t : State} (h : s.JudgedInto t)
include h

theorem State.JudgedInto.walls : t.plan.walls = s.plan.walls := by obtain ⟨_, _, _, _, rfl⟩ := h; rfl
theorem State.JudgedInto.types : t.plan.types = s.plan.types := by obtain ⟨_, _, _, _, rfl⟩ := h; rfl
theorem State.JudgedInto.station : t.dispatcher.station = s.dispatcher.station := by obtain ⟨_, _, _, _, rfl⟩ := h; rfl
theorem State.JudgedInto.hold : t.dispatcher.hold = s.dispatcher.hold := by obtain ⟨_, _, _, _, rfl⟩ := h; rfl
theorem State.JudgedInto.line : t.line = s.line := by obtain ⟨_, _, _, _, rfl⟩ := h; rfl
theorem State.JudgedInto.clock : t.clock = s.clock := by obtain ⟨_, _, _, _, rfl⟩ := h; rfl
theorem State.JudgedInto.conditions : t.conditions = s.conditions := by obtain ⟨_, _, _, _, rfl⟩ := h; rfl
theorem State.JudgedInto.options : t.options = s.options := by obtain ⟨_, _, _, _, rfl⟩ := h; rfl
theorem State.JudgedInto.engine : t.engine = s.engine := by obtain ⟨_, _, _, _, rfl⟩ := h; rfl
theorem State.JudgedInto.authority : t.authority = s.authority := by obtain ⟨_, _, _, _, rfl⟩ := h; rfl
theorem State.JudgedInto.portP : t.portP = s.portP := by obtain ⟨_, _, _, _, rfl⟩ := h; rfl
theorem State.JudgedInto.portM : t.portM = s.portM := by obtain ⟨_, _, _, _, rfl⟩ := h; rfl
theorem State.JudgedInto.events : s.events.Leads t.events := by obtain ⟨_, _, _, he, rfl⟩ := h; exact he

end

end Sys2Proof.Machine

namespace Sys2Proof.Machine

open Sys2Proof

/-! ### Deeds -/

/-- The five commands that change the Authority Unit (R151 to R155). -/
def SetsAuthority (c : Instr) : Prop :=
  (∃ code, c = .unlock code) ∨ c = .lock ∨ (∃ b code, c = .setCode b code) ∨ c = .freeze ∨ ∃ b, c = .setEpl b

/-- A record drawn anew: whatever of its plan fields and its withheld flag has changed, its state, its wall and its
optional parts stand. -/
structure Slot.Redrawn (x y : Slot) : Prop where
  state : y.state = x.state
  wall : y.wall = x.wall
  tag : y.tag = x.tag
  target : y.target = x.target
  asLaid : y.asLaid = x.asLaid
  faultReason : y.faultReason = x.faultReason
  openLeft : y.openLeft = x.openLeft
  corrected : y.corrected = x.corrected
  late : y.late = x.late

/-- Deeds that leave the ready queue at its law. -/
inductive Quiet (c : Instr) (s : State) : State → Prop
  | events (e : Events) (h : s.events.Leads e) : Quiet c s { s with events := e }
  | watchSet (f : WatchFields) (w : Watch) (hc : c = .watchSet f) (hw : watchRecordOf f = some w) :
      Quiet c s { s with events :=
        { s.events with watches := s.events.watches.setIfInBounds f.number.toNat w } }
  | authority (a : Authority) (hc : SetsAuthority c) : Quiet c s { s with authority := a }
  | dispatcher (d : Dispatcher) (hq : d.queue = s.dispatcher.queue)
      (hh : d.hold = s.dispatcher.hold ∨ c = .hold ∨ c = .release) : Quiet c s { s with dispatcher := d }
  | estop (level : Bool) : Quiet c s { s with estop := level }
  | engine (e : Engine) : Quiet c s { s with engine := e }
  | option (code : Nat) (lo hi v : Int) (hr : optionRange code = some (lo, hi)) (hlo : lo ≤ v) (hhi : v ≤ hi)
      (hp : (s.options.write code v).pairHolds code = true) : Quiet c s { s with options := s.options.write code v }
  | clockSet (v : Word) (hc : c = .setTime v) (hl : s.line = []) :
      Quiet c s { s with
        clock := some v.toNat
        conditions := { s.conditions.turnStale with lastReport := none } }
  | tick (now : Nat) (hc : c = .clockTick) (ht : s.clock = some now) (hlt : now < Config.maxTime)
      (hs : now + 1 = Config.maxTime → s.conditions.stale = true) : Quiet c s { s with clock := some (now + 1) }
  | turnStale : Quiet c s { s with conditions := s.conditions.turnStale }
  | report (temperature : Int) (wind : Nat) :
      Quiet c s { s with conditions := s.conditions.report s.options s.clock temperature wind }
  | reports (d : Carrier) (st : Stage) (deadline : Carrier → Option Nat) (hd : d ∈ s.line) (hd' : d.stage ≠ .faulted)
      (ht : st ≠ .targeted) (hf : st ≠ .faulted) :
      Quiet c s (s.modifyCarrier d.tag fun e => { e with stage := st, deadline := deadline e })
  | faults (d : Carrier) (hc : ∃ tag, c = .targetRequest tag) (hd : s.line.head? = some d) :
      Quiet c s (s.modifyCarrier d.tag fun e => { e with stage := .faulted })
  | targets (d : Carrier) (l : Nat) (t : Target) (corrected openLeft : Bool) (hd : s.line.head? = some d)
      (hf : d.stage ≠ .faulted) :
      Quiet c s ((s.modifyCarrier d.tag fun e => { e with stage := .targeted, left := some l, targeted := true
        }).modifySlot d.slot fun y => { y with target := some t, corrected := corrected, openLeft := openLeft })
  | wallParams (w : Nat) (p : WallParams) (audited : Wall → Bool) (hp : p.inRange = true) :
      Quiet c s (s.modifyWall w fun y => { y with params := p, audited := audited y })
  | wallFlags (w : Nat) (audited complete : Wall → Bool) :
      Quiet c s (s.modifyWall w fun y => { y with audited := audited y, complete := complete y })
  | brickType (n : Nat) (b : BrickType) : Quiet c s { s with plan := s.plan.setType n b }
  | redraw (i : Nat) (x : Slot) (f : Slot → Slot) (hx : s.plan.slot? i = some x) (hf : x.Redrawn (f x))
      (hc : x.state ≠ .claimed) (hr : x.state ≠ .ready) : Quiet c s (s.modifySlot i f)
  | delete (i : Nat) (x : Slot) (hx : s.plan.slot? i = some x) (hs : x.state = .planned) :
      Quiet c s ((s.eraseSlot i).loseSlot x.wall)

/-- Every slot of a wall is retired, the wall Closed, before any other slot is judged (R24). -/
def State.retireWall (w : Nat) (s : State) : State :=
  ((s.plan.slotsOf w).map Prod.fst).foldl State.retire (s.modifyWall w fun x => { x with state := .closed })

/-- A wall is freed, before any other slot is judged (R25). -/
def State.emptyWall (w : Nat) (s : State) : State :=
  { s with plan := { s.plan with slots := s.plan.slots.filter fun e => e.2.wall ≠ w } }.modifyWall w fun _ =>
    Wall.freeWall

/-- Deeds that may leave the ready queue off its law. -/
inductive Disturb (c : Instr) (s : State) : State → Prop
  | fault (i : Nat) (x : Slot) (r : FaultReason) (hq : i ∈ s.dispatcher.queue) (hx : s.plan.slot? i = some x) :
      Disturb c s (s.modifySlot i fun y => { y with state := .fault, faultReason := some r })
  | take (i : Nat) (x : Slot) (r : ClaimResult) (hcl : c = .claim) (hq : i ∈ s.dispatcher.queue)
      (hx : s.plan.slot? i = some x) (hh : s.dispatcher.hold = false) (hc : s.clock ≠ none)
      (hl : s.line.length < 8) :
      Disturb c s { s with
        line := s.line ++ [claimCarrier s.freeTag i x r]
        plan := s.plan.modifySlot i fun y => { y with tag := some s.freeTag, state := .claimed } }
  | lay (d : Carrier) (x : Slot) (st : SlotState) (a : AsLaid) (late : Bool) (hd : d ∈ s.line)
      (hx : s.plan.slot? d.slot = some x) (hst : st = .set ∨ st = .suspect)
      (ht : d.stage = .targeted ∨ (d.stage = .expired ∧ d.targeted = true)) :
      Disturb c s (s.afterLaying d x st a late)
  | drop (d : Carrier) (x : Slot) (hc : ∃ tag reason, c = .reject tag reason ∧ d.tag = tag.toNat) (hd : d ∈ s.line)
      (hx : s.plan.slot? d.slot = some x) : Disturb c s (s.dropCarrier d)
  | clearLine (hc : c = .lineReset) : Disturb c s s.clearLine
  | define (w : Nat) (p : WallParams) (n : Nat) (hw : (s.plan.wall w).state = .free) (hp : p.inRange = true)
      (hn : n ≤ 7) : Disturb c s (s.modifyWall w fun _ => draftWall p n)
  | priority (w n : Nat) (hn : n ≤ 7) : Disturb c s (s.modifyWall w fun y => { y with priority := n })
  | retireWall (w : Nat) (hw : (s.plan.wall w).state.live = true) (ha : s.plan.allSet w = true) :
      Disturb c s (s.retireWall w)
  | emptyWall (w : Nat) (hw : w < Config.wallCount)
      (hs : (s.plan.wall w).state = .draft ∨ (s.plan.wall w).state = .closed) : Disturb c s (s.emptyWall w)
  | load (i : Nat) (f : PlanFields) (hi : i < Config.slotCount) (hx : s.plan.slot? i = none)
      (hw : f.wall.toNat < Config.wallCount) (hd : (s.plan.wall f.wall.toNat).state = .draft) :
      Disturb c s ((s.putSlot i (slotOfFields f .planned)).gainSlot f.wall.toNat)
  | restore (i : Nat) (f : PlanFields) (a : AsLaid) (hi : i < Config.slotCount) (hx : s.plan.slot? i = none)
      (hw : f.wall.toNat < Config.wallCount) (hd : (s.plan.wall f.wall.toNat).state = .draft) :
      Disturb c s (((s.putSlot i { slotOfFields f .set with state := .set, asLaid := some a }).gainSlot
        f.wall.toNat).gainLaid f.wall.toNat)
  | redraw (i : Nat) (x : Slot) (f : Slot → Slot) (hx : s.plan.slot? i = some x) (hf : x.Redrawn (f x))
      (hc : x.state ≠ .claimed) : Disturb c s (s.modifySlot i f)
  | clear (i : Nat) (x : Slot) (hx : s.plan.slot? i = some x) (hs : x.state = .fault) :
      Disturb c s (s.modifySlot i fun y => { y with state := .planned, faultReason := none })
  | accept (i : Nat) (x : Slot) (hx : s.plan.slot? i = some x) (hs : x.state = .suspect) :
      Disturb c s (s.modifySlot i fun y => { y with state := .set })
  | lift (i : Nat) (x : Slot) (hx : s.plan.slot? i = some x) (hs : x.state = .suspect) :
      Disturb c s ((s.modifySlot i Slot.lifted).loseLaid x.wall)

/-- The moves of a wall between Draft, Open and Paused (R20 to R22). -/
def WallState.moves : WallState → WallState → Bool
  | .draft, .opened | .opened, .paused | .paused, .opened => true
  | _, _ => false

/-- Deeds that bring the ready queue to its law. -/
inductive Settles (s : State) : State → Prop
  | rejudge (ids : List Nat) : Settles s (s.rejudge ids)
  | reselect : Settles s s.reselect
  | wallState (w : Nat) (st : WallState) (hw : (s.plan.wall w).state.moves st = true) :
      Settles s (s.setWallState w st)

/-- A way of deeds; `true` where the queue is at its law at its end if it was at its start. -/
inductive Way (c : Instr) (s : State) : Bool → State → Prop
  | start : Way c s true s
  | quiet {b : Bool} {u v : State} : Way c s b u → Quiet c u v → Way c s b v
  | disturb {u v : State} : Way c s true u → Disturb c u v → Way c s false v
  | settle {b : Bool} {u v : State} : Way c s b u → Settles u v → Way c s true v

/-- The cursor a command's address moves before anything else (R14, R15). -/
inductive Addressed (c : Instr) (s : State) : State → Prop
  | plain (h : addressedRow c = none) : Addressed c s s
  | refused {p : Port} {code : Byte} {k : CommandClass} {a : SlotAddress}
      (h : addressedRow c = some (p, code, k, a)) (hr : s.takes p k → s.resolve p a = none) : Addressed c s s
  | resolved {p : Port} {code : Byte} {k : CommandClass} {a : SlotAddress} {i : Nat}
      (h : addressedRow c = some (p, code, k, a)) (ht : s.takes p k) (hr : s.resolve p a = some i) :
      Addressed c s (s.setCursor p i)

/-- What a command does to the ports when all else is done. -/
inductive Answered (c : Instr) (s : State) : State → Prop
  | silent : Answered c s s
  | reply (p : Port) (code : Byte) (st : Status) (b : Body) : Answered c s (s.reply p code st b)
  | released : Answered c s (s.release .P)
  | discarded (p : Port) : Answered c s (s.discardFrame p)
  | due (r : Response) : Answered c s (s.dueOnPlanPort r)
  | swept (i : Nat) (hc : c = .sweepStep) (hi : i < Config.slotCount) : Answered c s (s.setCursor .P i)
  | hunting (hc : c = .lineReset) : Answered c s (s.setReceiver .M .hunting)
  | waited (r : Response) (hr : s.portP.waiting = some r) :
      Answered c s { s with portP := { s.portP with sent := s.portP.sent ++ [r], waiting := none } }
  | powerOn (hc : c = .powerOnReset) :
      Answered c s (State.powerOn s.authority.code s.estop s.inputs s.pending)

/-- A way of deeds and an answer. -/
def Acts (c : Instr) (s t : State) : Prop := ∃ v, Way c s true v ∧ Answered c v t

/-- What a command comes to: its address, a way of deeds, and its answer. -/
def Does (c : Instr) (s t : State) : Prop := ∃ u, Addressed c s u ∧ Acts c u t

/-! ### Ways -/

section
variable {c : Instr} {s u v t : State} {b : Bool} {p : Port} {code : Byte} {k : CommandClass}

theorem Way.present (h : Way c s b u) (i : Nat) (st : SlotState) : Way c s b (u.present i st) := by
  obtain ⟨e, he, hu⟩ := u.present_frame i st
  rw [hu]
  exact h.quiet (.events e he)

/-- A deed that changes a slot's record as it enters a state is that deed and its presentation. -/
theorem Way.enter {i : Nat} {st : SlotState} {f : Slot → Slot}
    (h : Way c s b (u.modifySlot i fun x => { f x with state := st })) : Way c s b (u.enter i st f) :=
  h.present i st

theorem Way.latch (h : Way c s b u) {e : Events} (he : e.watches = u.events.watches) :
    Way c s b { u with events := e } := h.quiet (.events e (Events.leads_of_watches he))

theorem Way.latchPlanFault (h : Way c s b u) : Way c s b u.latchPlanFault :=
  h.latch (e := u.latchPlanFault.events) rfl

theorem Way.latchSuspect (h : Way c s b u) : Way c s b u.latchSuspect := h.latch (e := u.latchSuspect.events) rfl

theorem Way.latchExpiry (h : Way c s b u) : Way c s b u.latchExpiry := h.latch (e := u.latchExpiry.events) rfl

theorem Way.setConditions {k : Conditions} (h : Way c s b { u with conditions := k }) :
    Way c s b (u.setConditions k) := by
  have h' := h.latch (e := (u.setConditions k).events) rfl
  exact h'

theorem Way.rejudge (h : Way c s b u) (ids : List Nat) : Way c s true (u.rejudge ids) := h.settle (.rejudge ids)

theorem Way.reselect (h : Way c s b u) : Way c s true u.reselect := h.settle .reselect

theorem Way.clearAudited (h : Way c s b u) (w : Nat) : Way c s b (u.clearAudited w) :=
  h.quiet (.wallFlags w (fun _ => false) Wall.complete)

theorem Way.completionTest (h : Way c s b u) (w : Nat) : Way c s b (u.completionTest w) := by
  unfold State.completionTest
  split
  · exact (h.quiet (.wallFlags w Wall.audited fun _ => true)).latch rfl
  · exact h

theorem Way.acts (h : Way c s true v) : Acts c s v := ⟨v, h, .silent⟩

theorem Way.reply (h : Way c s true v) (p : Port) (code : Byte) (st : Status) (r : Body) :
    Acts c s (v.reply p code st r) := ⟨v, h, .reply p code st r⟩

theorem Way.refuse (h : Way c s true v) (p : Port) (code : Byte) (st : Status) :
    Acts c s (v.refuse p code st) := h.reply p code st .empty

theorem acts_refuse (p : Port) (code : Byte) (st : Status) : Acts c s (s.refuse p code st) :=
  Way.start.refuse p code st

theorem acts_reply (p : Port) (code : Byte) (st : Status) (r : Body) : Acts c s (s.reply p code st r) :=
  Way.start.reply p code st r

theorem acts_onPlanPort {take : State → State} (h : s.takes .P k → Acts c s (take s)) :
    Acts c s (s.onPlanPort code k take) := by
  rcases s.onPlanPort_cases code k take with ⟨ht, he⟩ | ⟨st, he⟩
  · rw [he]; exact h ht
  · rw [he]; exact acts_refuse .P code st

theorem acts_onPort {take : State → State} (h : s.takes p k → Acts c s (take s)) :
    Acts c s (s.onPort p code k take) := by
  rcases s.onPort_cases p code k take with ⟨ht, he⟩ | ⟨st, he⟩
  · rw [he]; exact h ht
  · rw [he]; exact acts_refuse p code st

theorem acts_withWall {w : Byte} {take : Nat → Wall → State → State}
    (h : w.toNat < Config.wallCount → Acts c s (take w.toNat (s.plan.wall w.toNat) s)) :
    Acts c s (s.withWall code w take) := by
  by_cases hw : w.toNat < Config.wallCount
  · rw [State.withWall_below hw]; exact h hw
  · rw [State.withWall_above hw]; exact acts_refuse _ _ _

/-- A command that carries no address. -/
theorem Acts.does (hr : addressedRow c = none) (h : Acts c s t) : Does c s t := ⟨s, .plain hr, h⟩

/-- A command that carries an address. -/
theorem does_withAddress {a : SlotAddress} {take : Nat → State → State} (hrow : addressedRow c = some (p, code, k, a))
    (h : ∀ i, s.takes p k → s.resolve p a = some i → Acts c (s.setCursor p i) (take i (s.setCursor p i))) :
    Does c s (s.onPort p code k fun s => s.withAddress p code a take) := by
  by_cases ht : s.takes p k
  · rw [State.onPort_of_takes ht]
    cases hr : s.resolve p a with
    | none =>
      rw [State.withAddress_none hr]
      exact ⟨s, .refused hrow fun _ => hr, acts_refuse _ _ _⟩
    | some i =>
      rw [State.withAddress_some hr]
      exact ⟨_, .resolved hrow ht hr, h i ht hr⟩
  · rcases s.onPort_cases p code k fun s => s.withAddress p code a take with ⟨ht', _⟩ | ⟨st, he⟩
    · exact absurd ht' ht
    · rw [he]
      exact ⟨s, .refused hrow fun h => absurd h ht, acts_refuse _ _ _⟩

/-- A port P command on a slot that is not Empty. -/
theorem does_withSlot {a : SlotAddress} {take : Nat → Slot → State → State}
    (hrow : addressedRow c = some (.P, code, k, a))
    (h : ∀ (u : State) (i : Nat) (x : Slot), u.plan.slot? i = some x → Acts c u (take i x u)) :
    Does c s (s.onPlanPort code k fun s => s.withSlot code a take) := by
  refine does_withAddress (p := .P) (take := fun i s => match s.plan.slot? i with
    | none => s.refuse .P code .badState
    | some x => take i x s) hrow fun i _ _ => ?_
  cases hx : (s.setCursor .P i).plan.slot? i with
  | none => exact acts_refuse _ _ _
  | some x => exact h _ i x hx

end

end Sys2Proof.Machine

namespace Sys2Proof.Machine

open Sys2Proof

section
variable {c : Instr} {s t : State} {p : Port}

/-! ### Reads, authority, events and weather -/

theorem slotRead_does (a : SlotAddress) (h : exec (.slotRead p a) s = .next t) : Does (.slotRead p a) s t := by
  cases h
  exact does_withAddress rfl fun i _ _ => acts_reply _ _ _ _

theorem wallRead_does (w : Byte) (h : exec (.wallRead p w) s = .next t) : Does (.wallRead p w) s t := by
  cases h
  refine (acts_onPort fun _ => ?_).does rfl
  split
  · exact acts_reply _ _ _ _
  · exact acts_refuse _ _ _

theorem typeRead_does (n : Byte) (h : exec (.typeRead p n) s = .next t) : Does (.typeRead p n) s t := by
  cases h
  refine (acts_onPort fun _ => ?_).does rfl
  split
  · exact acts_reply _ _ _ _
  · exact acts_refuse _ _ _

theorem queueRead_does (n : Byte) (h : exec (.queueRead p n) s = .next t) : Does (.queueRead p n) s t := by
  cases h
  refine (acts_onPort fun _ => ?_).does rfl
  split
  · exact acts_reply _ _ _ _
  · exact acts_refuse _ _ _

theorem eventFetch_does (h : exec (.eventFetch p) s = .next t) : Does (.eventFetch p) s t := by
  cases h
  refine (acts_onPort fun _ => ?_).does rfl
  refine (Way.start.quiet (.events _ ?_)).reply _ _ _ _
  split
  · exact Events.Leads.refl _
  · exact s.events.leads_clearLatch p _

theorem eventMask_does (m : Half) (h : exec (.eventMask p m) s = .next t) : Does (.eventMask p m) s t := by
  cases h
  refine (acts_onPort fun _ => ?_).does rfl
  exact (Way.start.latch (by cases p <;> rfl)).reply _ _ _ _

theorem watchRead_does (h : exec .watchRead s = .next t) : Does .watchRead s t := by
  cases h
  refine (acts_onPlanPort fun _ => ?_).does rfl
  refine Way.reply ?_ _ _ _ _
  split
  · exact Way.start.quiet (.events _ s.events.leads_clearWatches)
  · exact Way.start

theorem watchSet_does (f : WatchFields) (h : exec (.watchSet f) s = .next t) : Does (.watchSet f) s t := by
  cases h
  refine (acts_onPlanPort fun _ => ?_).does rfl
  split
  · split
    · exact acts_refuse _ _ _
    · rename_i w hw
      exact (Way.start.quiet (.watchSet f w rfl hw)).reply _ _ _ _
  · exact acts_refuse _ _ _

theorem unlock_does (code : EngineerCode) (h : exec (.unlock code) s = .next t) : Does (.unlock code) s t := by
  cases h
  exact (acts_onPlanPort fun _ => (Way.start.quiet (.authority _ (.inl ⟨code, rfl⟩))).reply _ _ _ _).does rfl

theorem lock_does (h : exec .lock s = .next t) : Does .lock s t := by
  cases h
  exact (acts_onPlanPort fun _ => (Way.start.quiet (.authority _ (.inr (.inl rfl)))).reply _ _ _ _).does rfl

theorem setCode_does (b : Byte) (code : EngineerCode) (h : exec (.setCode b code) s = .next t) :
    Does (.setCode b code) s t := by
  cases h
  refine (acts_onPlanPort fun _ => ?_).does rfl
  split
  · exact acts_refuse _ _ _
  · split
    · exact acts_refuse _ _ _
    · split
      · exact acts_refuse _ _ _
      · exact (Way.start.quiet (.authority _ (.inr (.inr (.inl ⟨b, code, rfl⟩))))).refuse _ _ _

theorem freeze_does (h : exec .freeze s = .next t) : Does .freeze s t := by
  cases h
  exact (acts_onPlanPort fun _ =>
    (Way.start.quiet (.authority _ (.inr (.inr (.inr (.inl rfl)))))).refuse _ _ _).does rfl

theorem setEpl_does (b : Byte) (h : exec (.setEpl b) s = .next t) : Does (.setEpl b) s t := by
  cases h
  refine (acts_onPlanPort fun _ => ?_).does rfl
  split
  · exact acts_refuse _ _ _
  · exact (Way.start.quiet (.authority _ (.inr (.inr (.inr (.inr ⟨b, rfl⟩)))))).refuse _ _ _

theorem acts_requestHold (code : Byte) (hold : Bool) (hc : c = .hold ∨ c = .release) :
    Acts c s (s.requestHold code hold) := by
  have h : Way c s true { s with dispatcher := { s.dispatcher with hold := hold } } :=
    Way.start.quiet (.dispatcher _ rfl (.inr hc))
  exact h.reply _ _ _ _

theorem hold_does (h : exec .hold s = .next t) : Does .hold s t := by
  cases h
  exact (acts_onPlanPort fun _ => acts_requestHold _ _ (.inl rfl)).does rfl

theorem release_does (h : exec .release s = .next t) : Does .release s t := by
  cases h
  exact (acts_onPlanPort fun _ => acts_requestHold _ _ (.inr rfl)).does rfl

theorem setTime_does (v : Word) (h : exec (.setTime v) s = .next t) : Does (.setTime v) s t := by
  cases h
  refine (acts_onPlanPort fun _ => ?_).does rfl
  split
  · rename_i hl
    exact (Way.setConditions (Way.start.quiet (.clockSet v rfl (List.isEmpty_iff.1 hl)))).reply _ _ _ _
  · exact acts_refuse _ _ _

theorem clampInt_between {lo hi : Int} (h : lo ≤ hi) (x : Int) : lo ≤ clampInt lo hi x ∧ clampInt lo hi x ≤ hi := by
  unfold clampInt
  omega

theorem optionRange_le {code : Nat} {lo hi : Int} (h : optionRange code = some (lo, hi)) : lo ≤ hi := by
  unfold optionRange at h
  split at h <;> cases h <;> decide

theorem setOption_does (code : Byte) (v : Word) (h : exec (.setOption code v) s = .next t) :
    Does (.setOption code v) s t := by
  cases h
  refine (acts_onPlanPort fun _ => ?_).does rfl
  split
  · exact acts_refuse _ _ _
  · rename_i lo hi hr
    dsimp only
    split
    · rename_i hp
      obtain ⟨hlo, hhi⟩ := clampInt_between (optionRange_le hr) v.toInt
      exact (Way.start.quiet (.option _ _ _ _ hr hlo hhi hp)).reply _ _ _ _
    · exact acts_refuse _ _ _

theorem clockTick_does (h : exec .clockTick s = .next t) : Does .clockTick s t := by
  cases h
  refine Acts.does rfl ?_
  split
  · exact Way.start.acts
  · rename_i now ht
    dsimp only
    split
    · exact Way.start.acts
    · rename_i hlt
      have hlt : now < Config.maxTime := Nat.lt_of_not_le hlt
      split
      · rename_i hmax
        unfold State.goStale
        dsimp only
        split
        · rename_i hs
          exact (Way.start.quiet (.tick now rfl ht hlt fun _ => hs)).acts
        · have stale : Way .clockTick s true { s with conditions := s.conditions.turnStale } :=
            Way.start.quiet .turnStale
          have ticked : Way .clockTick s true { s with
              clock := some (now + 1)
              conditions := s.conditions.turnStale } := stale.quiet (.tick now rfl ht hlt fun _ => rfl)
          exact (Way.setConditions (u := { s with clock := some (now + 1) }) ticked).acts
      · rename_i hmax
        exact (Way.start.quiet (.tick now rfl ht hlt fun h => absurd h hmax)).acts

theorem staleness_does (h : exec .staleness s = .next t) : Does .staleness s t := by
  cases h
  refine Acts.does rfl ?_
  split
  · exact (Way.setConditions (Way.start.quiet .turnStale)).acts
  · exact Way.start.acts

theorem conditions_does (temperature wind : Byte) (h : exec (.conditions temperature wind) s = .next t) :
    Does (.conditions temperature wind) s t := by
  cases h
  refine Acts.does rfl (Way.reply ?_ _ _ _ _)
  have hw : Way (.conditions temperature wind) s true _ :=
    Way.start.quiet (.report temperature.toInt wind.toNat)
  split
  · exact Way.setConditions hw
  · exact hw

/-! ### Walls and types -/

theorem wallDefine_does (w : Byte) (f : WallFields) (n : Byte) (h : exec (.wallDefine w f n) s = .next t) :
    Does (.wallDefine w f n) s t := by
  cases h
  refine (acts_onPlanPort fun _ => acts_withWall fun _ => ?_).does rfl
  split
  · exact acts_refuse _ _ _
  · rename_i hf
    split
    · rename_i hp
      exact (Way.start.disturb (.define _ _ _ (by simpa using hf) hp (Nat.min_le_right _ _))).reselect.refuse _ _ _
    · exact acts_refuse _ _ _

theorem wallSet_does (w : Byte) (f : WallFields) (h : exec (.wallSet w f) s = .next t) : Does (.wallSet w f) s t := by
  cases h
  refine (acts_onPlanPort fun _ => acts_withWall fun _ => ?_).does rfl
  dsimp only
  split
  · exact acts_refuse _ _ _
  · split
    · exact acts_refuse _ _ _
    · split
      · exact acts_refuse _ _ _
      · rename_i hp
        split
        · exact acts_refuse _ _ _
        · exact (Way.start.quiet (.wallParams _ _ _ (by simpa using hp))).refuse _ _ _

theorem wallOpen_does (w : Byte) (h : exec (.wallOpen w) s = .next t) : Does (.wallOpen w) s t := by
  cases h
  refine (acts_onPlanPort fun _ => acts_withWall fun _ => ?_).does rfl
  split
  · exact acts_refuse _ _ _
  · rename_i hd
    split
    · exact (Way.start.settle (.wallState _ _ (by rw [not_not.1 hd]; rfl))).refuse _ _ _
    · exact acts_refuse _ _ _

theorem pause_does (w : Byte) (h : exec (.pause w) s = .next t) : Does (.pause w) s t := by
  cases h
  refine (acts_onPlanPort fun _ => acts_withWall fun _ => ?_).does rfl
  split
  · rename_i hd
    exact (Way.start.settle (.wallState _ _ (by rw [hd]; rfl))).refuse _ _ _
  · exact acts_refuse _ _ _

theorem resume_does (w : Byte) (h : exec (.resume w) s = .next t) : Does (.resume w) s t := by
  cases h
  refine (acts_onPlanPort fun _ => acts_withWall fun _ => ?_).does rfl
  split
  · rename_i hd
    exact (Way.start.settle (.wallState _ _ (by rw [hd]; rfl))).refuse _ _ _
  · exact acts_refuse _ _ _

theorem priority_does (w n : Byte) (h : exec (.priority w n) s = .next t) : Does (.priority w n) s t := by
  cases h
  refine (acts_onPlanPort fun _ => acts_withWall fun _ => ?_).does rfl
  split
  · exact acts_refuse _ _ _
  · exact (Way.start.disturb (.priority _ _ (Nat.min_le_right _ _))).reselect.refuse _ _ _

theorem close_does (w : Byte) (h : exec (.close w) s = .next t) : Does (.close w) s t := by
  cases h
  refine (acts_onPlanPort fun _ => acts_withWall fun _ => ?_).does rfl
  split
  · rename_i hw
    obtain ⟨hl, ha⟩ := Bool.and_eq_true_iff.1 hw
    exact ((Way.start.disturb (.retireWall _ hl ha)).rejudge _).reply _ _ _ _
  · exact acts_refuse _ _ _

theorem wallFree_does (w : Byte) (h : exec (.wallFree w) s = .next t) : Does (.wallFree w) s t := by
  cases h
  refine (acts_onPlanPort fun _ => acts_withWall fun hw => ?_).does rfl
  split
  · rename_i hs
    exact ((Way.start.disturb (.emptyWall _ hw hs)).rejudge _).reply _ _ _ _
  · exact acts_refuse _ _ _

theorem typeDefine_does (n : Byte) (f : TypeFields) (h : exec (.typeDefine n f) s = .next t) :
    Does (.typeDefine n f) s t := by
  cases h
  refine (acts_onPlanPort fun _ => ?_).does rfl
  split
  · split
    · exact acts_refuse _ _ _
    · split
      · exact acts_refuse _ _ _
      · exact (Way.start.quiet (.brickType _ _)).refuse _ _ _
  · exact acts_refuse _ _ _

/-! ### Slots -/

theorem of_not_not_decide {q : Prop} [Decidable q] (h : ¬ (!decide q) = true) : q := by simpa using h

theorem testLoad_ok {q : Plan} {r : LoadRecord} (h : q.testLoad r = .ok) :
    r.index.toNat < Config.slotCount ∧ q.slot? r.index.toNat = none ∧ r.plan.wall.toNat < Config.wallCount
      ∧ (q.wall r.plan.wall.toNat).state = .draft := by
  unfold Plan.testLoad at h
  dsimp only at h
  split at h
  · cases h
  · rename_i hi
    split at h
    · cases h
    · rename_i hx
      split at h
      · cases h
      · rename_i hw
        split at h
        · cases h
        · rename_i hd
          exact ⟨by simpa [isIndex] using hi, by simpa using hx, of_not_not_decide hw, not_not.1 hd⟩

/-- The records of a frame load one after another, each a deed that settles the queue (R127, R128). -/
theorem Way.loadRecords (rs : List LoadRecord) (a : LoadProgress) (h : Way c s true a.state) :
    Way c s true (rs.foldl LoadProgress.take a).state := by
  induction rs generalizing a with
  | nil => exact h
  | cons r rs ih =>
    refine ih _ ?_
    unfold LoadProgress.take
    dsimp only
    split
    · rename_i hr
      obtain ⟨hi, hx, hw, hd⟩ := testLoad_ok hr
      exact ((h.disturb (.load _ r.plan hi hx hw hd)).clearAudited _).rejudge _
    · exact h

theorem slotLoad_does (rs : List LoadRecord) (h : exec (.slotLoad rs) s = .next t) : Does (.slotLoad rs) s t := by
  cases h
  refine Acts.does rfl ?_
  split
  · exact acts_refuse _ _ _
  · exact acts_onPlanPort fun _ => (Way.start.loadRecords rs ⟨s, [], 0, false⟩).reply _ _ _ _

/-- An Empty slot an address resolves to lies in the table, whatever the table's form. -/
theorem State.index_lt_of_resolve_empty {a : SlotAddress} {i : Nat} (hr : s.resolve p a = some i)
    (hx : s.plan.slot? i = none) : i < Config.slotCount := by
  unfold State.resolve at hr
  split at hr
  · dsimp only at hr
    split at hr
    · rename_i hi
      cases hr
      exact hi
    · cases hr
  · split at hr
    · have hm := List.mem_of_getElem? hr
      unfold Plan.courseOrder at hm
      obtain ⟨e, he, rfl⟩ := List.mem_map.1 hm
      rw [List.mem_insertionSort] at he
      have : (s.plan.slot? e.1).isSome := mem_keys_iff.1 (List.mem_map_of_mem (List.mem_filter.1 he).1)
      rw [hx] at this
      cases this
    · cases hr
  · dsimp only at hr
    split at hr
    · rename_i hi
      cases hr
      omega
    · cases hr
  · cases hr

theorem slotRestore_does (a : SlotAddress) (f : PlanFields) (laid : AsLaidFields)
    (h : exec (.slotRestore a f laid) s = .next t) : Does (.slotRestore a f laid) s t := by
  cases h
  refine does_withAddress (p := .P) rfl fun i _ hr => ?_
  split
  · exact acts_refuse _ _ _
  · rename_i hx
    dsimp only
    split
    · exact acts_refuse _ _ _
    · rename_i hw
      split
      · exact acts_refuse _ _ _
      · rename_i hd
        split
        · refine Way.refuse ?_ _ _ _
          refine Way.rejudge (Way.present (Way.clearAudited (Way.start.disturb
            (.restore i f (asLaidOf laid) (State.index_lt_of_resolve_empty hr ?_) ?_ ?_ (not_not.1 hd))) _) _ _) _
          · simpa using hx
          · simpa using hx
          · exact of_not_not_decide hw
        · exact acts_refuse _ _ _

/-- An edit that keeps a record's wall, state and parts, and its judgement (R132, R140). -/
theorem Way.editSlot {u : State} (h : Way c s true u) {i : Nat} {x y : Slot} (hx : u.plan.slot? i = some x)
    (hf : x.Redrawn y) (hc : x.state ≠ .claimed) : Way c s true (u.editSlot i x y) := by
  unfold State.editSlot
  refine Way.rejudge (b := false) ?_ _
  split
  · exact h.disturb (.redraw i x _ hx hf hc)
  · exact (h.disturb (.redraw i x _ hx hf hc)).clearAudited _

theorem redrawn_amended (x : Slot) (bits : Byte) (f : DrawnFields) : x.Redrawn (amended x bits f) :=
  ⟨rfl, rfl, rfl, rfl, rfl, rfl, rfl, rfl, rfl⟩

theorem redrawn_withheld (x : Slot) (flag : Bool) : x.Redrawn { x with withheld := flag } :=
  ⟨rfl, rfl, rfl, rfl, rfl, rfl, rfl, rfl, rfl⟩

theorem slotAmend_does (a : SlotAddress) (bits : Byte) (f : DrawnFields) (h : exec (.slotAmend a bits f) s = .next t) :
    Does (.slotAmend a bits f) s t := by
  cases h
  refine does_withSlot rfl fun u i x hx => ?_
  split
  · exact acts_refuse _ _ _
  · rename_i hc
    split
    · exact acts_refuse _ _ _
    · split
      · exact acts_refuse _ _ _
      · dsimp only
        split
        · exact acts_refuse _ _ _
        · exact (Way.start.editSlot hx (redrawn_amended x bits f) hc).reply _ _ _ _

theorem slotDelete_does (a : SlotAddress) (h : exec (.slotDelete a) s = .next t) : Does (.slotDelete a) s t := by
  cases h
  refine does_withSlot rfl fun u i x hx => ?_
  split
  · exact acts_refuse _ _ _
  · rename_i hd
    push Not at hd
    exact ((Way.start.quiet (.delete i x hx hd.2)).clearAudited _).refuse _ _ _

theorem Way.setWithheld {u : State} (h : Way c s true u) {i : Nat} {x : Slot} (flag : Bool)
    (hx : u.plan.slot? i = some x) (hc : x.state ≠ .claimed) : Way c s true (u.setWithheld i x flag) := by
  unfold State.setWithheld
  split
  · exact h
  · exact (h.disturb (.redraw i x _ hx (redrawn_withheld x flag) hc)).rejudge _

theorem acts_withholdCommand {u : State} (code : Byte) (flag : Bool) {i : Nat} {x : Slot}
    (hx : u.plan.slot? i = some x) : Acts c u (u.withholdCommand code flag i x) := by
  unfold State.withholdCommand
  split
  · exact acts_refuse _ _ _
  · rename_i hc
    exact (Way.start.setWithheld flag hx hc).reply _ _ _ _

theorem withhold_does (a : SlotAddress) (h : exec (.withhold a) s = .next t) : Does (.withhold a) s t := by
  cases h
  exact does_withSlot rfl fun u i x hx => acts_withholdCommand _ _ hx

theorem free_does (a : SlotAddress) (h : exec (.free a) s = .next t) : Does (.free a) s t := by
  cases h
  exact does_withSlot rfl fun u i x hx => acts_withholdCommand _ _ hx

theorem clear_does (a : SlotAddress) (h : exec (.clear a) s = .next t) : Does (.clear a) s t := by
  cases h
  refine does_withSlot rfl fun u i x hx => ?_
  split
  · exact acts_refuse _ _ _
  · rename_i hs
    exact ((Way.start.disturb (.clear i x hx (not_not.1 hs))).rejudge _).reply _ _ _ _

theorem accept_does (a : SlotAddress) (h : exec (.accept a) s = .next t) : Does (.accept a) s t := by
  cases h
  refine does_withSlot rfl fun u i x hx => ?_
  split
  · exact acts_refuse _ _ _
  · rename_i hs
    exact (((Way.enter (Way.start.disturb (.accept i x hx (not_not.1 hs)))).rejudge _).completionTest _).reply _ _ _ _

theorem lift_does (a : SlotAddress) (h : exec (.lift a) s = .next t) : Does (.lift a) s t := by
  cases h
  refine does_withSlot rfl fun u i x hx => ?_
  split
  · exact acts_refuse _ _ _
  · rename_i hs
    split
    · exact acts_refuse _ _ _
    · exact (((Way.start.disturb (.lift i x hx (not_not.1 hs))).quiet
        (.wallFlags x.wall Wall.audited fun _ => false)).rejudge _).reply _ _ _ _

/-! ### Sweeps and audits -/

/-- An admitted Sweep whose address has resolved: its operands tested, its context written (R136, R137). -/
def State.writeContext (op : Option SweepOp) (f : SweepFields) (i : Nat) (s : State) : State :=
  match sweepContextOf i op f with
  | none => s.refuse .P 0x10 .badValue
  | some d => { s with engine := .sweep d }.release .P

theorem State.startSweep_eq (op : Option SweepOp) (f : SweepFields) (s : State) :
    s.startSweep op f = s.withAddress .P 0x10 f.start (State.writeContext op f) := rfl

theorem acts_writeContext (op : Option SweepOp) (f : SweepFields) (i : Nat) : Acts c s (s.writeContext op f i) := by
  unfold State.writeContext
  split
  · exact acts_refuse _ _ _
  · exact ⟨_, Way.start.quiet (.engine _), .released⟩

theorem sweepWithhold_does (op : Byte) (f : SweepFields) (h : exec (.sweepWithhold op f) s = .next t) :
    Does (.sweepWithhold op f) s t := by
  cases h
  exact does_withAddress (p := .P) rfl fun i _ _ => acts_writeContext _ f i

theorem sweepFree_does (f : SweepFields) (h : exec (.sweepFree f) s = .next t) : Does (.sweepFree f) s t := by
  cases h
  exact does_withAddress (p := .P) rfl fun i _ _ => acts_writeContext _ f i

theorem sweepShift_does (f : SweepFields) (h : exec (.sweepShift f) s = .next t) : Does (.sweepShift f) s t := by
  cases h
  exact does_withAddress (p := .P) rfl fun i _ _ => acts_writeContext _ f i

/-- The type of a Retype is read from a catalogue that the cursor's move leaves as it is. -/
theorem State.startSweep_retype_eq (f : SweepFields) (s : State) :
    s.startSweep (s.plan.retypeOf f.deltaOrType) f
      = s.withAddress .P 0x10 f.start fun i u => u.writeContext (u.plan.retypeOf f.deltaOrType) f i := by
  rw [State.startSweep_eq]
  cases hr : s.resolve .P f.start with
  | none => rw [State.withAddress_none hr, State.withAddress_none hr]
  | some i => rw [State.withAddress_some hr, State.withAddress_some hr, State.setCursor_plan]

theorem sweepRetype_does (f : SweepFields) (h : exec (.sweepRetype f) s = .next t) : Does (.sweepRetype f) s t := by
  cases h
  simp only [State.startSweep_retype_eq]
  exact does_withAddress (p := .P) rfl fun i _ _ => acts_writeContext _ f i

theorem Way.sweepChange {u : State} (h : Way c s true u) {i : Nat} {x y : Slot} (hx : u.plan.slot? i = some x)
    (hf : x.Redrawn y) (hc : x.state ≠ .claimed) : Way c s true (u.sweepChange i x y) := by
  unfold State.sweepChange
  split
  · exact h.editSlot hx hf hc
  · rename_i hr
    exact (h.quiet (.redraw i x _ hx hf hc hr)).clearAudited _

theorem Way.sweepEdit {u v : State} (h : Way c s true u) {i : Nat} {edit : Slot → Option Slot}
    (he : ∀ x y, edit x = some y → x.Redrawn y) (hv : u.sweepEdit i edit = .ok v) : Way c s true v := by
  unfold State.sweepEdit at hv
  split at hv
  · cases hv; exact h
  · rename_i x hx
    split at hv
    · cases hv
    · rename_i hc
      split at hv
      · cases hv
      · split at hv
        · cases hv
        · split at hv
          · cases hv
          · rename_i y hy
            split at hv
            · cases hv; exact h
            · cases hv
              exact h.sweepChange hx (he x y hy) hc

theorem Way.sweepWithheld {u v : State} (h : Way c s true u) {i : Nat} {flag : Bool}
    (hv : u.sweepWithheld i flag = .ok v) : Way c s true v := by
  unfold State.sweepWithheld at hv
  split at hv
  · cases hv; exact h
  · rename_i x hx
    split at hv
    · cases hv
    · rename_i hc
      cases hv
      exact h.setWithheld flag hx hc

theorem redrawn_of_shifted {delta : Int} {x y : Slot} (h : shifted delta x = some y) : x.Redrawn y := by
  unfold shifted at h
  dsimp only at h
  split at h
  · cases h; exact ⟨rfl, rfl, rfl, rfl, rfl, rfl, rfl, rfl, rfl⟩
  · cases h

theorem redrawn_of_retyped {q : Plan} {n : Nat} {x y : Slot} (h : q.retyped n x = some y) : x.Redrawn y := by
  unfold Plan.retyped at h
  split at h
  · cases h; exact ⟨rfl, rfl, rfl, rfl, rfl, rfl, rfl, rfl, rfl⟩
  · cases h

theorem Way.sweepApply {u v : State} (h : Way c s true u) {i : Nat} {op : SweepOp}
    (hv : u.sweepApply i op = .ok v) : Way c s true v := by
  cases op with
  | withhold => exact h.sweepWithheld hv
  | free => exact h.sweepWithheld hv
  | shift d => exact h.sweepEdit (fun _ _ => redrawn_of_shifted) hv
  | retype n => exact h.sweepEdit (fun _ _ => redrawn_of_retyped) hv

theorem acts_endSweep (d : SweepContext) (r : SweepEnd) : Acts c s (s.endSweep d r) :=
  ⟨_, Way.start.quiet (.engine .idle), .due _⟩

theorem sweepStep_does (h : exec .sweepStep s = .next t) : Does .sweepStep s t := by
  cases h
  refine Acts.does rfl ?_
  split
  · rename_i d hd
    unfold State.sweepStep
    split
    · exact acts_endSweep _ _
    · split
      · exact acts_endSweep _ _
      · split
        · exact acts_endSweep _ _
        · rename_i hedge
          dsimp only
          split
          · split
            · exact acts_endSweep _ _
            · rename_i v hv
              refine ⟨_, (Way.start.sweepApply hv).quiet (.engine _), .swept _ rfl ?_⟩
              omega
          · exact acts_endSweep _ _
  · exact Way.start.acts

theorem audit_does (w : Byte) (h : exec (.audit w) s = .next t) : Does (.audit w) s t := by
  cases h
  refine (acts_onPlanPort fun _ => acts_withWall fun _ => ?_).does rfl
  split
  · exact acts_refuse _ _ _
  · exact ⟨_, Way.start.quiet (.engine _), .released⟩

theorem auditStep_does (h : exec .auditStep s = .next t) : Does .auditStep s t := by
  cases h
  refine Acts.does rfl ?_
  split
  · rename_i d hd
    unfold State.auditStep
    split
    · exact ⟨_, Way.start.quiet (.engine .idle), .due _⟩
    · split
      · exact ⟨_, (Way.start.quiet (.wallFlags d.wall (fun _ => true) Wall.complete)).quiet (.engine .idle), .due _⟩
      · split
        · exact ⟨_, Way.start.quiet (.engine .idle), .due _⟩
        · exact (Way.start.quiet (.engine _)).acts
  · exact Way.start.acts

theorem abort_does (h : exec .abort s = .next t) : Does .abort s t := by
  cases h
  refine Acts.does rfl ?_
  split
  · exact acts_refuse _ _ _
  · exact (Way.start.quiet (.engine _)).refuse _ _ _
  · exact (Way.start.quiet (.engine _)).refuse _ _ _

end

end Sys2Proof.Machine

namespace Sys2Proof.Machine

open Sys2Proof

section
variable {c : Instr} {s t : State} {p : Port}

/-! ### The boom line -/

theorem Way.claimEnds {u : State} (h : Way c s true u) : Acts c s u.claimEnds := h.reply _ _ _ _

/-- A Claim's scan faults entries and takes at most one brick (R49 to R51). -/
theorem acts_claimScan (fuel pos : Nat) {u : State} (h : Way .claim s true u) (hh : u.dispatcher.hold = false)
    (hc : u.clock ≠ none) (hl : u.line.length < 8) : Acts .claim s (u.claimScan fuel pos) := by
  induction fuel generalizing u pos with
  | zero => exact h.claimEnds
  | succ fuel ih =>
    unfold State.claimScan
    split
    · exact h.claimEnds
    · rename_i i hi
      have hq := List.mem_of_getElem? hi
      split
      · exact ih (pos + 1) h hh hc hl
      · rename_i x hx
        split
        · split
          · rename_i r hr
            refine ih pos (Way.reselect (Way.latchPlanFault (Way.enter (h.disturb (.fault i x r hq hx))))) ?_ ?_ ?_
            · simpa [State.faultAtClaim] using hh
            · simpa [State.faultAtClaim] using hc
            · simpa [State.faultAtClaim] using hl
          · rename_i r hr
            have taken := h.disturb (.take i x r rfl hq hx hh hc hl)
            exact ((Way.enter (u := { u with line := u.line ++ [claimCarrier u.freeTag i x r] }) taken).rejudge
              _).reply _ _ _ _
        · exact ih (pos + 1) h hh hc hl

theorem claim_does (h : exec .claim s = .next t) : Does .claim s t := by
  cases h
  refine Acts.does rfl ?_
  split
  · exact acts_reply _ _ _ _
  · rename_i hr
    have hc : s.clock ≠ none := by
      intro hc
      simp [State.claimRefusal, hc] at hr
    have hh : s.dispatcher.hold = false := by
      by_contra hh
      rw [Bool.not_eq_false] at hh
      simp only [State.claimRefusal, hh, if_true] at hr
      split_ifs at hr
    have hl : s.line.length < 8 := by
      by_contra hl
      simp only [State.claimRefusal, Config.lineCapacity, Nat.not_lt.1 hl, if_true] at hr
      split_ifs at hr
    exact acts_claimScan _ _ Way.start hh hc hl

/-- A report that goes on goes on with a carrier of the line (R52). -/
theorem does_withCarrier {code tag : Byte} {take : Carrier → State → Result} (hrow : addressedRow c = none)
    (hn : s.withCarrier code tag take = .next t)
    (h : ∀ d ∈ s.line, d.tag = tag.toNat → take d s = .next t → Acts c s t) : Does c s t := by
  cases hd : s.carrier? tag.toNat with
  | none =>
    rw [State.withCarrier_none hd] at hn
    cases hn
    exact (acts_refuse _ _ _).does hrow
  | some d =>
    rw [State.withCarrier_some hd] at hn
    obtain ⟨hm, ht⟩ := State.carrier?_some hd
    exact (h d hm ht hn).does hrow

/-- A report from the front carrier alone (R52). -/
theorem acts_whenFront {code : Byte} {d : Carrier} {take : State → Result} (hn : s.whenFront code d take = .next t)
    (h : ∀ e, s.line.head? = some e → e.tag = d.tag → take s = .next t → Acts c s t) : Acts c s t := by
  unfold State.whenFront at hn
  split at hn
  · rename_i hf
    obtain ⟨e, he, ht⟩ := State.isFront_iff.1 hf
    exact h e he ht hn
  · cases hn
    exact acts_refuse _ _ _

/-- The front carrier of a tag is the carrier the tag names. -/
theorem State.carrier?_of_front {n : Nat} {d e : Carrier} (hd : s.carrier? n = some d) (he : s.line.head? = some e)
    (ht : e.tag = n) : e = d := by
  rw [State.carrier?_head he ht] at hd
  exact Option.some.inj hd

theorem cutDone_does (tag : Byte) (h : exec (.cutDone tag) s = .next t) : Does (.cutDone tag) s t := by
  simp only [exec, execCutDone] at h
  refine does_withCarrier rfl h fun d hd _ hn => ?_
  split at hn
  · rename_i hs
    cases hn
    exact (Way.start.quiet (.reports d .cut Carrier.deadline hd (by simp [hs.1]) (by simp) (by simp))).reply _ _ _ _
  · cases hn
    exact acts_refuse _ _ _

theorem Carrier.not_faulted_of_mayGlue {d : Carrier} (h : d.mayGlue = true) : d.stage ≠ .faulted := by
  intro hf
  simp [Carrier.mayGlue, hf] at h

theorem glued_does (tag : Byte) (h : exec (.glued tag) s = .next t) : Does (.glued tag) s t := by
  simp only [exec, execGlued] at h
  refine does_withCarrier rfl h fun d hd _ hn => ?_
  split at hn
  · rename_i hs
    split at hn
    · cases hn
    · rename_i now hnow
      cases hn
      exact (Way.start.quiet (.reports d .glued (fun _ => some (min (now + s.openTimeNow) Config.maxTime)) hd
        (Carrier.not_faulted_of_mayGlue hs) (by simp) (by simp))).reply _ _ _ _
  · cases hn
    exact acts_refuse _ _ _

theorem acts_issueTarget {d : Carrier} (x : Slot) (l : Nat) (hd : s.line.head? = some d) (hf : d.stage ≠ .faulted) :
    Acts c s (s.issueTarget d x l) := by
  have h : Way c s true _ := Way.start.quiet (.targets d l (s.plan.headTarget d x l)
    (s.plan.isCorrected x (s.plan.headTarget d x l)) (s.plan.leftOpen x) hd hf)
  exact h.reply _ _ _ _

theorem targetRequest_does (tag : Byte) (h : exec (.targetRequest tag) s = .next t) :
    Does (.targetRequest tag) s t := by
  simp only [exec, execTargetRequest] at h
  cases hd : s.carrier? tag.toNat with
  | none =>
    rw [State.withCarrier_none hd] at h
    cases h
    exact (acts_refuse _ _ _).does rfl
  | some d =>
    rw [State.withCarrier_some hd] at h
    refine Acts.does rfl (acts_whenFront h fun e he ht hn => ?_)
    have hde : e = d := State.carrier?_of_front hd he (ht.trans (State.carrier?_some hd).2)
    subst hde
    split at hn
    · cases hn; exact acts_refuse _ _ _
    · cases hn; exact acts_refuse _ _ _
    · cases hn; exact acts_refuse _ _ _
    · cases hn; exact acts_reply _ _ _ _
    · rename_i hs
      split at hn
      · cases hn
      · split at hn
        · cases hn
          exact (Way.start.quiet (.faults e ⟨tag, rfl⟩ he)).reply _ _ _ _
        · cases hn
          exact acts_issueTarget _ _ he (by simp [hs])
    · split at hn
      · cases hn
      · split at hn
        · cases hn
        · cases hn; exact acts_reply _ _ _ _

/-- A brick laid, its verdict Set (R92). -/
theorem Way.laidAsSet {d : Carrier} {x : Slot} (a : AsLaid) (hd : d ∈ s.line) (hx : s.plan.slot? d.slot = some x)
    (ht : d.stage = .targeted ∨ (d.stage = .expired ∧ d.targeted = true)) :
    Way c s true (s.laidAsSet d x a) := by
  unfold State.laidAsSet
  rw [State.layBrick_eq s d x _ _ _ hx]
  exact ((Way.start.disturb (.lay d x .set a false hd hx (.inl rfl) ht)).rejudge _).completionTest _

/-- A brick laid, its slot Suspect (R59, R93). -/
theorem Way.laidAsSuspect {d : Carrier} {x : Slot} (a : AsLaid) (late : Bool) (hd : d ∈ s.line)
    (hx : s.plan.slot? d.slot = some x)
    (ht : d.stage = .targeted ∨ (d.stage = .expired ∧ d.targeted = true)) :
    Way c s true (s.laidAsSuspect d x a late) := by
  unfold State.laidAsSuspect
  rw [State.layBrick_eq s d x _ _ _ hx]
  exact ((Way.start.disturb (.lay d x .suspect a late hd hx (.inr rfl) ht)).latchSuspect).rejudge _

theorem laid_does (tag : Byte) (f : LaidFields) (h : exec (.laid tag f) s = .next t) : Does (.laid tag f) s t := by
  simp only [exec, execLaid] at h
  refine does_withCarrier rfl h fun d hd _ hn => ?_
  split at hn
  · refine acts_whenFront hn fun _ _ _ hn => ?_
    split at hn
    · rename_i hs
      split at hn
      · cases hn
      · cases hn
      · rename_i x now hx hc
        split at hn
        · cases hn
          exact (Way.laidAsSuspect _ _ hd hx hs).refuse _ _ _
        · split at hn
          · cases hn
          · split at hn
            · cases hn
              exact (Way.laidAsSet _ hd hx hs).reply _ _ _ _
            · cases hn
              exact (Way.laidAsSuspect _ _ hd hx hs).reply _ _ _ _
    · cases hn
      exact acts_refuse _ _ _
  · cases hn
    exact acts_refuse _ _ _

theorem reject_does (tag reason : Byte) (h : exec (.reject tag reason) s = .next t) :
    Does (.reject tag reason) s t := by
  simp only [exec, execReject] at h
  refine does_withCarrier rfl h fun d hd ht hn => ?_
  split at hn
  · cases hn
  · rename_i x hx
    cases hn
    exact ((Way.start.disturb (.drop d x ⟨tag, reason, rfl, ht⟩ hd hx)).rejudge _).reply _ _ _ _

theorem adhesiveExpiry_does (n : Nat) (h : exec (.adhesiveExpiry n) s = .next t) :
    Does (.adhesiveExpiry n) s t := by
  cases h
  refine Acts.does rfl ?_
  split
  · exact Way.start.acts
  · rename_i d hd
    obtain ⟨hm, ht⟩ := State.carrier?_some hd
    subst ht
    split
    · rename_i hs
      refine ((Way.start.quiet (.reports d .expired Carrier.deadline hm ?_ (by simp) (by simp))).latchExpiry).acts
      intro hf
      simp [State.expiryDue, hf] at hs
    · exact Way.start.acts

theorem station_does (v : Byte) (h : exec (.station v) s = .next t) : Does (.station v) s t := by
  cases h
  refine Acts.does rfl ?_
  split
  · exact acts_refuse _ _ _
  · rename_i st _
    split
    · have set : Way (.station v) s true { s with dispatcher := { s.dispatcher with station := st } } :=
        Way.start.quiet (.dispatcher _ rfl (.inl rfl))
      exact (set.rejudge _).refuse _ _ _
    · exact acts_refuse _ _ _

theorem binStatus_does (m : Half) (h : exec (.binStatus m) s = .next t) : Does (.binStatus m) s t := by
  cases h
  have set : Way (.binStatus m) s true { s with dispatcher := { s.dispatcher with binEmpty := m } } :=
    Way.start.quiet (.dispatcher _ rfl (.inl rfl))
  exact (set.refuse _ _ _).does rfl

/-! ### Resets and link rows -/

@[simp] theorem State.dropCarrier_line (s : State) (d : Carrier) :
    (s.dropCarrier d).line = s.line.filter fun e => e.tag != d.tag := by
  unfold State.dropCarrier State.returnToFault State.returnToPlanned
  split <;> simp

theorem State.line_foldl_dropCarrier (l : List Carrier) (s : State) :
    (l.foldl State.dropCarrier s).line = s.line.filter fun e => l.all fun d => e.tag != d.tag := by
  induction l generalizing s with
  | nil => simp
  | cons d l ih => simp [ih, List.filter_filter, Bool.and_comm]

/-- A line that is cleared is empty (R69). -/
theorem State.clearLine_line (s : State) : s.clearLine.line = [] := by
  unfold State.clearLine
  rw [State.line_foldl_dropCarrier, List.filter_eq_nil_iff]
  intro d hd h
  have := List.all_eq_true.1 h d hd
  simp at this

theorem lineReset_does (h : exec .lineReset s = .next t) : Does .lineReset s t := by
  cases h
  refine Acts.does rfl ⟨_, ?_, .hunting rfl⟩
  have hd : Way .lineReset s true { s with dispatcher := s.dispatcher.lineReset } :=
    Way.start.quiet (.dispatcher _ rfl (.inl rfl))
  have hr := (hd.disturb (.clearLine rfl)).rejudge
    (State.clearLine { s with dispatcher := s.dispatcher.lineReset }).plan.indices
  have hl : (State.rejudgeAll (State.clearLine { s with dispatcher := s.dispatcher.lineReset })).line = [] :=
    (State.judgedInto_rejudge _ _).line.trans (State.clearLine_line _)
  have he := (hr.quiet .turnStale).latch (e := (State.rejudgeAll (State.clearLine { s with
    dispatcher := s.dispatcher.lineReset })).events.clearMachinePort) rfl
  rw [← hl]
  exact he

theorem powerOnReset_does (h : exec .powerOnReset s = .next t) : Does .powerOnReset s t := by
  cases h
  exact Acts.does rfl ⟨s, Way.start, .powerOn rfl⟩

theorem endingResponseSend_does (h : exec .endingResponseSend s = .next t) : Does .endingResponseSend s t := by
  cases h
  refine Acts.does rfl ?_
  split
  · rename_i r hr _
    exact ⟨s, Way.start, .waited r hr⟩
  · exact Way.start.acts

theorem acts_discardFrame (p : Port) : Acts c s (s.discardFrame p) := ⟨s, Way.start, .discarded p⟩

theorem frameGapTimeout_does (h : exec (.frameGapTimeout p) s = .next t) : Does (.frameGapTimeout p) s t := by
  cases h
  refine Acts.does rfl ?_
  split
  · exact Way.start.acts
  · exact acts_discardFrame p

theorem frameCheckFail_does (frame : List Byte) (h : exec (.frameCheckFail p frame) s = .next t) :
    Does (.frameCheckFail p frame) s t := by
  simp only [exec, execFrameCheckFail] at h
  split at h
  · cases h
    exact (acts_discardFrame p).does rfl
  · cases h

theorem frameLengthOutOfRange_does (n : Byte) (h : exec (.frameLengthOutOfRange p n) s = .next t) :
    Does (.frameLengthOutOfRange p n) s t := by
  simp only [exec, execFrameLengthOutOfRange] at h
  split at h
  · cases h
  · cases h
    exact (acts_discardFrame p).does rfl

theorem unknownCode_does (code : Byte) (body : List Byte) (h : exec (.unknownCode p code body) s = .next t) :
    Does (.unknownCode p code body) s t := by
  simp only [exec, execUnknownCode] at h
  split at h
  · cases h
  · split at h
    · cases h
      exact (acts_refuse _ _ _).does rfl
    · split at h
      · cases h
      · cases h
        exact (acts_refuse _ _ _).does rfl

end

/-! ### Every command -/

/-- Every command that leads on is its address, a way of deeds, and its answer. -/
theorem exec_does {c : Instr} {s t : State} (h : exec c s = .next t) : Does c s t := by
  cases c with
  | slotRead p a => exact slotRead_does a h
  | wallRead p w => exact wallRead_does w h
  | typeRead p n => exact typeRead_does n h
  | queueRead p n => exact queueRead_does n h
  | lineRead p => cases h; exact (acts_onPort fun _ => acts_reply _ _ _ _).does rfl
  | readTime p => cases h; exact (acts_onPort fun _ => acts_reply _ _ _ _).does rfl
  | conditionsRead p => cases h; exact (acts_onPort fun _ => acts_reply _ _ _ _).does rfl
  | optionRead p => cases h; exact (acts_onPort fun _ => acts_reply _ _ _ _).does rfl
  | status p => cases h; exact (acts_onPort fun _ => acts_reply _ _ _ _).does rfl
  | eventFetch p => exact eventFetch_does h
  | eventMask p m => exact eventMask_does m h
  | authorityRead => cases h; exact (acts_onPlanPort fun _ => acts_reply _ _ _ _).does rfl
  | watchRead => exact watchRead_does h
  | watchSet f => exact watchSet_does f h
  | audit w => exact audit_does w h
  | sweepWithhold op f => exact sweepWithhold_does op f h
  | sweepFree f => exact sweepFree_does f h
  | sweepShift f => exact sweepShift_does f h
  | sweepRetype f => exact sweepRetype_does f h
  | abort => exact abort_does h
  | hold => exact hold_does h
  | release => exact release_does h
  | unlock code => exact unlock_does code h
  | lock => exact lock_does h
  | setCode b code => exact setCode_does b code h
  | freeze => exact freeze_does h
  | wallDefine w f n => exact wallDefine_does w f n h
  | wallSet w f => exact wallSet_does w f h
  | wallOpen w => exact wallOpen_does w h
  | pause w => exact pause_does w h
  | resume w => exact resume_does w h
  | priority w n => exact priority_does w n h
  | close w => exact close_does w h
  | wallFree w => exact wallFree_does w h
  | typeDefine n f => exact typeDefine_does n f h
  | slotLoad rs => exact slotLoad_does rs h
  | slotRestore a f laid => exact slotRestore_does a f laid h
  | slotAmend a bits f => exact slotAmend_does a bits f h
  | slotDelete a => exact slotDelete_does a h
  | withhold a => exact withhold_does a h
  | free a => exact free_does a h
  | clear a => exact clear_does a h
  | accept a => exact accept_does a h
  | lift a => exact lift_does a h
  | setTime v => exact setTime_does v h
  | setOption code v => exact setOption_does code v h
  | setEpl b => exact setEpl_does b h
  | station v => exact station_does v h
  | claim => exact claim_does h
  | cutDone tag => exact cutDone_does tag h
  | glued tag => exact glued_does tag h
  | targetRequest tag => exact targetRequest_does tag h
  | laid tag f => exact laid_does tag f h
  | reject tag reason => exact reject_does tag reason h
  | binStatus m => exact binStatus_does m h
  | conditions temperature wind => exact conditions_does temperature wind h
  | sweepStep => exact sweepStep_does h
  | auditStep => exact auditStep_does h
  | clockTick => exact clockTick_does h
  | adhesiveExpiry n => exact adhesiveExpiry_does n h
  | staleness => exact staleness_does h
  | frameGapTimeout p => exact frameGapTimeout_does h
  | frameCheckFail p frame => exact frameCheckFail_does frame h
  | unknownCode p code body => exact unknownCode_does code body h
  | endingResponseSend => exact endingResponseSend_does h
  | estopChange level => cases h; exact (Way.start.quiet (.estop level)).acts.does rfl
  | lineReset => exact lineReset_does h
  | powerOnReset => exact powerOnReset_does h
  | frameLengthOutOfRange p n => exact frameLengthOutOfRange_does n h

/-! ### Every step -/

/-- What an address does lies in the ports. -/
theorem Addressed.sameInside {c : Instr} {s u : State} (h : Addressed c s u) : s.SameInside u := by
  cases h with
  | plain => exact .refl s
  | refused => exact .refl s
  | resolved => exact s.sameInside_setPort _ _

/-- What an answer does lies in the ports, but for power-on reset. -/
theorem Answered.sameInside_or {c : Instr} {s t : State} (h : Answered c s t) :
    s.SameInside t ∨ c = .powerOnReset ∧ t = State.powerOn s.authority.code s.estop s.inputs s.pending := by
  cases h with
  | silent => exact .inl (.refl s)
  | reply => exact .inl (s.sameInside_setPort _ _)
  | released => exact .inl (s.sameInside_setPort _ _)
  | discarded p => exact .inl ((s.sameInside_setPort p _).trans (State.sameInside_setPort _ p _))
  | due => exact .inl (s.sameInside_setPort .P _)
  | swept => exact .inl (s.sameInside_setPort _ _)
  | hunting => exact .inl (s.sameInside_setPort _ _)
  | waited => exact .inl (s.sameInside_setPort .P _)
  | powerOn hc => exact .inr ⟨hc, rfl⟩

/-- A step takes a command, or it receives and nothing inside the ports changes. -/
theorem step_cases {s t : State} (h : step s = .next t) :
    (∃ c u, s.SameInside u ∧ u.portP = s.portP ∧ u.portM = s.portM ∧ exec c u = .next t) ∨ t = s.receiveInput := by
  unfold step at h
  split at h
  · rename_i c rest _
    exact .inl ⟨c, { s with pending := rest }, rfl, rfl, rfl, h⟩
  · cases h
    exact .inr rfl

theorem State.sameInside_receiveInput (s : State) : s.SameInside s.receiveInput := by
  unfold State.receiveInput
  split
  · exact .refl s
  · exact State.SameInside.trans (t := { s with inputs := _, pending := _ }) rfl (State.sameInside_setPort _ _ _)

/-- A law that reads nothing of the ports, that power-on reset brings and that every command's deeds keep, is kept by
every step. -/
theorem step_keeps {P : State → Prop} (inside : ∀ {s t : State}, s.SameInside t → P s → P t)
    (deeds : ∀ {c : Instr} {s t : State}, Way c s true t → P s → P t)
    (powerOn : ∀ code estop inputs pending, P (State.powerOn code estop inputs pending)) {s t : State}
    (h : step s = .next t) (hs : P s) : P t := by
  rcases step_cases h with ⟨c, u, hu, -, -, hc⟩ | rfl
  · obtain ⟨v, ha, w, hw, hans⟩ := exec_does hc
    have hw' : P w := deeds hw (inside ha.sameInside (inside hu hs))
    rcases hans.sameInside_or with hin | ⟨-, rfl⟩
    · exact inside hin hw'
    · exact powerOn _ _ _ _
  · exact inside s.sameInside_receiveInput hs

end Sys2Proof.Machine

/-! PROOFS of the ready queue's law (R38 to R41): every deed keeps the slot table's form, a quiet deed leaves the queue
at its law, and a settling deed brings it there. -/

namespace Sys2Proof.Machine

open Sys2Proof

/-! ### What the queue reads -/

/-- The key of a slot that is Ready. -/
def Plan.readyKey (p : Plan) (e : Nat × Slot) : Option Key := if e.2.state = .ready then some (p.key e) else none

/-- The queue that keys give. -/
def queueOfKeys (keys : List Key) : List Nat :=
  ((keys.insertionSort fun a b => b.before a = false).map Key.index).take Config.queueCapacity

theorem Plan.map_key_readySlots (p : Plan) : p.readySlots.map p.key = p.slots.filterMap p.readyKey := by
  unfold Plan.readySlots
  induction p.slots with
  | nil => rfl
  | cons e l ih =>
    by_cases h : e.2.state = .ready
    · simp [Plan.readyKey, h, ih]
    · simp [Plan.readyKey, h, ih]

/-- The queue's law reads the keys of the Ready slots and nothing else (R37, R38). -/
theorem Plan.queueByLaw_eq (p : Plan) : p.queueByLaw = queueOfKeys (p.slots.filterMap p.readyKey) := by
  unfold Plan.queueByLaw Plan.readyOrder queueOfKeys
  rw [← Plan.map_key_readySlots, ← List.map_insertionSort (r := fun a b => (p.key b).before (p.key a) = false)
    (hl := fun a _ b _ => Iff.rfl), List.map_map]
  rfl

theorem Plan.key_congr {p q : Plan} (h : ∀ w, (p.wall w).priority = (q.wall w).priority) : p.key = q.key := by
  funext e
  simp [Plan.key, h]

theorem Plan.readyKey_congr {p q : Plan} (h : ∀ w, (p.wall w).priority = (q.wall w).priority) :
    p.readyKey = q.readyKey := by
  funext e
  simp [Plan.readyKey, Plan.key_congr h]

/-- A record changes, its key as a Ready slot, if it is one, standing. -/
theorem Plan.queueByLaw_modifySlot {p : Plan} (hs : tableWf p.slots) {i : Nat} {f : Slot → Slot}
    (hk : ∀ x, p.slot? i = some x → p.readyKey (i, f x) = p.readyKey (i, x)) :
    (p.modifySlot i f).queueByLaw = p.queueByLaw := by
  rw [Plan.queueByLaw_eq, Plan.queueByLaw_eq]
  congr 1
  have hw : (p.modifySlot i f).readyKey = p.readyKey := Plan.readyKey_congr fun _ => rfl
  rw [hw]
  unfold Plan.modifySlot tableModify
  rw [List.filterMap_map]
  refine List.filterMap_congr fun e he => ?_
  by_cases h : e.1 = i
  · obtain ⟨j, y⟩ := e
    cases h
    simpa using hk y ((Plan.mem_slots_iff hs).1 he)
  · simp [h]

/-- A slot that is not Ready goes (R41). -/
theorem Plan.queueByLaw_eraseSlot {p : Plan} (hs : tableWf p.slots) {i : Nat} {x : Slot}
    (hx : p.slot? i = some x) (hr : x.state ≠ .ready) : (p.eraseSlot i).queueByLaw = p.queueByLaw := by
  refine Plan.queueByLaw_congr ?_ fun _ => rfl
  unfold Plan.readySlots Plan.eraseSlot tableErase
  rw [List.filter_filter]
  refine List.filter_congr fun e he => ?_
  by_cases h : e.1 = i
  · obtain ⟨j, y⟩ := e
    cases h
    have := (Plan.mem_slots_iff hs).1 he
    rw [hx] at this
    cases this
    simp [hr]
  · simp [h]

/-- A wall's record changes but for its priority. -/
theorem Plan.queueByLaw_modifyWall (p : Plan) (w : Nat) {f : Wall → Wall} (hf : ∀ x, (f x).priority = x.priority) :
    (p.modifyWall w f).queueByLaw = p.queueByLaw := by
  refine Plan.queueByLaw_congr rfl fun v => ?_
  rw [Plan.wall_modifyWall]
  split
  · exact hf _
  · rfl

/-! ### The form of the table -/

section
variable {c : Instr} {s t : State} {b : Bool}

theorem State.tableWf_enter (hs : tableWf s.plan.slots) (i : Nat) {st : SlotState} (hst : st ≠ .empty)
    (f : Slot → Slot) : tableWf (s.enter i st f).plan.slots := by
  rw [State.enter_plan]
  exact Plan.tableWf_modifySlot hs fun _ _ => hst

theorem State.tableWf_rejudge (hs : tableWf s.plan.slots) (ids : List Nat) :
    tableWf (s.rejudge ids).plan.slots := by
  rw [State.rejudge_eq hs]
  exact Plan.tableWf_rejudged hs _ _

theorem State.tableWf_dropCarrier (hs : tableWf s.plan.slots) (d : Carrier) :
    tableWf (s.dropCarrier d).plan.slots := by
  unfold State.dropCarrier
  split
  · exact State.tableWf_enter (s := s.removeCarrier d.tag) hs _ (by simp) _
  · exact Plan.tableWf_modifySlot hs fun _ _ => by simp

theorem State.tableWf_foldl_dropCarrier (l : List Carrier) (hs : tableWf s.plan.slots) :
    tableWf (l.foldl State.dropCarrier s).plan.slots := by
  induction l generalizing s with
  | nil => exact hs
  | cons d l ih => exact ih (State.tableWf_dropCarrier hs d)

theorem State.tableWf_foldl_retire (ids : List Nat) (hs : tableWf s.plan.slots) :
    tableWf (ids.foldl State.retire s).plan.slots := by
  induction ids generalizing s with
  | nil => exact hs
  | cons i ids ih => exact ih (State.tableWf_enter hs i (by simp) id)

/-- A quiet deed keeps the table's form. -/
theorem Quiet.tableWf (h : Quiet c s t) (hs : tableWf s.plan.slots) : tableWf t.plan.slots := by
  cases h with
  | targets d l t corrected openLeft hd hf =>
    exact Plan.tableWf_modifySlot hs fun x (hx : s.plan.slot? d.slot = some x) =>
      show x.state ≠ .empty from state_ne_empty_of_get hs hx
  | redraw i x f hx hf hc hr =>
    refine Plan.tableWf_modifySlot hs fun y hy => ?_
    rw [hx] at hy
    cases hy
    rw [hf.state]
    exact state_ne_empty_of_get hs hx
  | delete i x hx hs' => exact Plan.tableWf_eraseSlot hs i
  | _ => exact hs

/-- A quiet deed leaves the queue at its law. -/
theorem Quiet.queueLaw (h : Quiet c s t) (hs : Machine.tableWf s.plan.slots) (hq : s.queueLaw) : t.queueLaw := by
  cases h with
  | dispatcher d hd hh => exact hd.trans hq
  | targets d l t corrected openLeft hd hf =>
    refine hq.trans (Eq.symm ?_)
    rw [State.modifySlot_plan, State.modifyCarrier_plan]
    exact Plan.queueByLaw_modifySlot hs fun _ _ => rfl
  | wallParams w p audited hp =>
    refine hq.trans (Eq.symm ?_)
    rw [State.modifyWall_plan]
    exact Plan.queueByLaw_modifyWall _ _ fun _ => rfl
  | wallFlags w audited complete =>
    refine hq.trans (Eq.symm ?_)
    rw [State.modifyWall_plan]
    exact Plan.queueByLaw_modifyWall _ _ fun _ => rfl
  | redraw i x f hx hf hc hr =>
    refine hq.trans (Eq.symm (Plan.queueByLaw_modifySlot hs fun y hy => ?_))
    rw [hx] at hy
    cases hy
    simp [Plan.readyKey, hf.state, hr]
  | delete i x hx hs' =>
    refine hq.trans (Eq.symm ?_)
    rw [State.loseSlot_plan, State.eraseSlot_plan]
    refine Eq.trans (Plan.queueByLaw_modifyWall _ _ ?_) (Plan.queueByLaw_eraseSlot hs hx (by simp [hs']))
    exact fun _ => rfl
  | _ => exact hq

/-- A deed that disturbs the queue keeps the table's form. -/
theorem Disturb.tableWf (h : Disturb c s t) (hs : Machine.tableWf s.plan.slots) : Machine.tableWf t.plan.slots := by
  cases h with
  | fault => exact Plan.tableWf_modifySlot hs fun _ _ => by simp
  | take => exact Plan.tableWf_modifySlot hs fun _ _ => by simp
  | lay d x st a late hd hx hst ht =>
    exact tableWf_afterLaying hs (by rcases hst with rfl | rfl <;> simp)
  | drop d => exact State.tableWf_dropCarrier hs d
  | clearLine => exact State.tableWf_foldl_dropCarrier _ hs
  | define => exact hs
  | priority => exact hs
  | retireWall w => exact State.tableWf_foldl_retire _ hs
  | emptyWall w => exact tableWf_filter hs _
  | load i f hi => exact Plan.tableWf_putSlot hs hi (by simp [slotOfFields])
  | restore i f a hi => exact Plan.tableWf_putSlot hs hi (by simp)
  | redraw i x f hx hf hc =>
    refine Plan.tableWf_modifySlot hs fun y hy => ?_
    rw [hx] at hy
    cases hy
    rw [hf.state]
    exact state_ne_empty_of_get hs hx
  | clear => exact Plan.tableWf_modifySlot hs fun _ _ => by simp
  | accept => exact Plan.tableWf_modifySlot hs fun _ _ => by simp
  | lift => exact Plan.tableWf_modifySlot hs fun _ _ => by simp [Slot.lifted]

theorem Settles.tableWf (h : Settles s t) (hs : Machine.tableWf s.plan.slots) : Machine.tableWf t.plan.slots := by
  cases h with
  | rejudge ids => exact State.tableWf_rejudge hs ids
  | reselect => exact hs
  | wallState w st => exact State.tableWf_rejudge (s := s.modifyWall w fun x => { x with state := st }) hs _

theorem Settles.queueLaw (h : Settles s t) : t.queueLaw := by
  cases h with
  | rejudge => rfl
  | reselect => rfl
  | wallState => rfl

/-- A way of deeds keeps the table's form, and the queue's law where it ends settled. -/
theorem Way.queueInForm (h : Way c s b t) (hs : QueueInForm s) :
    tableWf t.plan.slots ∧ (b = true → t.queueLaw) := by
  induction h with
  | start => exact ⟨hs.wf, fun _ => hs.q⟩
  | quiet _ hd ih => exact ⟨hd.tableWf ih.1, fun hb => hd.queueLaw ih.1 (ih.2 hb)⟩
  | disturb _ hd ih => exact ⟨hd.tableWf ih.1, fun hb => by cases hb⟩
  | settle _ hd ih => exact ⟨hd.tableWf ih.1, fun _ => hd.queueLaw⟩

theorem QueueInForm.sameInside (h : s.SameInside t) (hs : QueueInForm s) : QueueInForm t := by
  unfold State.SameInside at h
  rw [h]
  exact ⟨hs.wf, hs.q⟩

end

/-- Settles O25: a command is a way of deeds between its address and its answer; quiet deeds leave the queue at its law,
and a way that has disturbed it ends settled. -/
theorem stepKeepsTheQueueLaw : Obligations.StepKeepsTheQueueLaw := by
  unfold Obligations.StepKeepsTheQueueLaw
  intro s t wf queue h
  have kept : QueueInForm t := step_keeps (P := QueueInForm) QueueInForm.sameInside
    (fun way hs => ⟨(way.queueInForm hs).1, (way.queueInForm hs).2 rfl⟩)
    (fun _ _ _ _ => ⟨tableWf_reset, rfl⟩) h ⟨wf, queue⟩
  exact ⟨kept.wf, kept.q⟩

end Sys2Proof.Machine

/-! PROOFS of the laws of the tables and the boom line (sections 1.2, 3.2, 3.4 and 5.1): every deed keeps them, the
queue's law serving where a Claim takes or faults a queued slot. -/

namespace Sys2Proof.Machine

open Sys2Proof

/-! ### The laws -/

/-- The laws of `State.Consistent` but for the queue's. -/
structure State.Sound (s : State) : Prop where
  table : tableWf s.plan.slots
  line : s.lineLaw
  clock : s.clockLaw
  target : s.targetLaw
  walls : s.plan.wallLaw

/-- A record stands in a wall of the table whose state admits its own. -/
def Plan.stands (p : Plan) (x : Slot) : Prop :=
  x.wall < Config.wallCount ∧ x.state.fitsWall (p.wall x.wall).state = true

theorem Plan.claimedBy_iff {p : Plan} {d : Carrier} :
    p.claimedBy d = true ↔ ∃ x, p.slot? d.slot = some x ∧ x.state = .claimed ∧ x.tag = some d.tag := by
  simp [Plan.claimedBy, Option.any_eq_true]

theorem Plan.wallLaw_iff {p : Plan} (hs : tableWf p.slots) :
    p.wallLaw ↔ ∀ i x, p.slot? i = some x → p.stands x :=
  ⟨fun h _ _ hx => h _ ((Plan.mem_slots_iff hs).2 hx), fun h e he => h e.1 e.2 ((Plan.mem_slots_iff hs).1 he)⟩

section
variable {s t : State}

theorem State.Sound.stands (hs : s.Sound) {i : Nat} {x : Slot} (hx : s.plan.slot? i = some x) : s.plan.stands x :=
  (Plan.wallLaw_iff hs.table).1 hs.walls i x hx

/-- A carrier's slot is Claimed and holds its tag (R46). -/
theorem State.Sound.claimed (hs : s.Sound) {d : Carrier} (hd : d ∈ s.line) :
    ∃ x, s.plan.slot? d.slot = some x ∧ x.state = .claimed ∧ x.tag = some d.tag :=
  Plan.claimedBy_iff.1 (hs.line.2.1 d hd).2

/-- A Claimed slot has a carrier (R46). -/
theorem State.Sound.carried (hs : s.Sound) {i : Nat} {x : Slot} (hx : s.plan.slot? i = some x)
    (hc : x.state = .claimed) : ∃ d ∈ s.line, d.slot = i :=
  hs.line.2.2 (i, x) ((Plan.mem_slots_iff hs.table).2 hx) hc

/-- A slot carries one tag, so two carriers of one slot are one by their tags. -/
theorem State.Sound.tag_eq (hs : s.Sound) {d e : Carrier} (hd : d ∈ s.line) (he : e ∈ s.line) (h : e.slot = d.slot) :
    e.tag = d.tag := by
  obtain ⟨x, hx, -, hxt⟩ := hs.claimed hd
  obtain ⟨y, hy, -, hyt⟩ := hs.claimed he
  rw [h, hx] at hy
  cases hy
  rw [hxt] at hyt
  exact (Option.some.inj hyt).symm

/-- Tags are distinct, so a tag names one carrier (R46). -/
theorem State.Sound.eq_of_tag (hs : s.Sound) {d e : Carrier} (hd : d ∈ s.line) (he : e ∈ s.line) (h : e.tag = d.tag) :
    e = d := List.inj_on_of_nodup_map hs.line.1 he hd h

/-! ### What keeps the laws -/

/-- The plan changes, no Claimed record with it. -/
theorem State.Sound.of_plan (hs : s.Sound) (hl : t.line = s.line) (hk : s.clock.isSome = true → t.clock.isSome = true)
    (hw : tableWf t.plan.slots)
    (hc : ∀ i x, x.state = .claimed → (t.plan.slot? i = some x ↔ s.plan.slot? i = some x))
    (hf : ∀ i x, t.plan.slot? i = some x → t.plan.stands x) : t.Sound where
  table := hw
  line := by
    refine ⟨hl ▸ hs.line.1, fun d hd => ?_, fun e he hec => ?_⟩
    · rw [hl] at hd
      obtain ⟨x, hx, hxc, hxt⟩ := hs.claimed hd
      exact ⟨(hs.line.2.1 d hd).1, Plan.claimedBy_iff.2 ⟨x, (hc _ x hxc).2 hx, hxc, hxt⟩⟩
    · rw [hl]
      exact hs.carried ((hc e.1 e.2 hec).1 ((Plan.mem_slots_iff hw).1 he)) hec
  clock := fun h => hk (hs.clock (hl ▸ h))
  target := by
    intro d hd
    rw [hl] at hd
    obtain ⟨x, hx, hxc, -⟩ := hs.claimed hd
    have ht := hs.target d hd
    rw [hx] at ht
    rw [(hc _ x hxc).2 hx]
    exact ht
  walls := (Plan.wallLaw_iff hw).2 hf

/-- Nothing moves but what the laws do not read. -/
theorem State.Sound.of_same (hs : s.Sound) (hp : t.plan = s.plan) (hl : t.line = s.line)
    (hk : s.clock.isSome = true → t.clock.isSome = true) : t.Sound :=
  hs.of_plan hl hk (hp ▸ hs.table) (fun i x _ => by rw [hp]) fun i x hx => by
    rw [hp] at hx ⊢
    exact hs.stands hx

/-- A record that is not Claimed changes into another that is not, and that stands where it is. -/
theorem State.Sound.of_modifySlot (hs : s.Sound) {i : Nat} {x : Slot} {f : Slot → Slot}
    (hx : s.plan.slot? i = some x) (hc : x.state ≠ .claimed) (hc' : (f x).state ≠ .claimed)
    (hf : s.plan.stands (f x)) : (s.modifySlot i f).Sound := by
  have hne : (f x).state ≠ .empty := by
    intro h
    have := hf.2
    rw [h] at this
    cases this
  refine hs.of_plan rfl id (Plan.tableWf_modifySlot hs.table fun y hy => ?_) (fun j y hy => ?_) fun j y hy => ?_
  · rw [hx] at hy
    cases hy
    exact hne
  · rw [State.modifySlot_plan, Plan.slot?_modifySlot]
    by_cases h : i = j
    · subst h
      rw [if_pos rfl, hx, Option.map_some, Option.some.injEq, Option.some.injEq]
      constructor
      · rintro rfl; exact absurd hy hc'
      · rintro rfl; exact absurd hy hc
    · rw [if_neg h]
  · rw [State.modifySlot_plan, Plan.slot?_modifySlot] at hy
    by_cases h : i = j
    · subst h
      rw [if_pos rfl, hx] at hy
      cases hy
      exact hf
    · rw [if_neg h] at hy
      exact hs.stands hy

/-- A wall's record changes so that its slots still stand there. -/
theorem State.Sound.of_modifyWall (hs : s.Sound) (w : Nat) (f : Wall → Wall)
    (hf : ∀ i x, s.plan.slot? i = some x → x.wall = w → x.state.fitsWall (f (s.plan.wall w)).state = true) :
    (s.modifyWall w f).Sound := by
  refine hs.of_plan rfl id hs.table (fun _ _ _ => Iff.rfl) fun i x (hx : s.plan.slot? i = some x) => ?_
  refine ⟨(hs.stands hx).1, ?_⟩
  rw [State.modifyWall_plan, Plan.wall_modifyWall]
  split
  · rename_i h
    rw [← h.1]
    exact hf i x hx h.1.symm
  · exact (hs.stands hx).2

/-- A wall's record changes but for its state. -/
theorem State.Sound.of_modifyWall_state (hs : s.Sound) (w : Nat) {f : Wall → Wall} (hf : ∀ x, (f x).state = x.state) :
    (s.modifyWall w f).Sound :=
  hs.of_modifyWall w f fun i x hx h => by
    rw [hf, ← h]
    exact (hs.stands hx).2

/-- A carrier's record changes but for its tag and its slot. -/
theorem State.Sound.of_modifyCarrier (hs : s.Sound) (n : Nat) {f : Carrier → Carrier} (ht : ∀ d, (f d).tag = d.tag)
    (hl : ∀ d, (f d).slot = d.slot)
    (hg : ∀ d ∈ s.line, d.tag = n → ((f d).stage = .targeted → (f d).targeted = true)
      ∧ ((f d).targeted = true → ((s.plan.slot? d.slot).any fun x => x.target.isSome) = true)) :
    (s.modifyCarrier n f).Sound := by
  have htag : ((s.modifyCarrier n f).line.map Carrier.tag) = s.line.map Carrier.tag := by
    rw [State.modifyCarrier_line, List.map_map]
    refine List.map_congr_left fun d _ => ?_
    dsimp only [Function.comp]
    split
    · exact ht d
    · rfl
  refine ⟨hs.table, ⟨htag ▸ hs.line.1, fun d hd => ?_, fun e he hc => ?_⟩, fun h => ?_, fun d hd => ?_, hs.walls⟩
  · obtain ⟨e, he, rfl⟩ := List.mem_map.1 hd
    have := hs.line.2.1 e he
    split
    · rw [Plan.claimedBy_iff] at this ⊢
      rw [ht, hl]
      exact this
    · exact this
  · obtain ⟨d, hd, h⟩ := hs.line.2.2 e he hc
    refine ⟨_, List.mem_map_of_mem hd, ?_⟩
    split
    · exact (hl d).trans h
    · exact h
  · refine hs.clock fun hn => h ?_
    rw [State.modifyCarrier_line, hn]
    rfl
  · obtain ⟨e, he, rfl⟩ := List.mem_map.1 hd
    split
    · rename_i h
      rw [hl]
      exact hg e he (by simpa using h)
    · exact hs.target e he

/-- Records change but for their states, walls and tags, and lose no target part. -/
theorem State.Sound.of_parts (hs : s.Sound) (i : Nat) {f : Slot → Slot} (hst : ∀ x, (f x).state = x.state)
    (hw : ∀ x, (f x).wall = x.wall) (ht : ∀ x, (f x).tag = x.tag)
    (hg : ∀ x, x.target.isSome = true → (f x).target.isSome = true) : (s.modifySlot i f).Sound := by
  have hwf : tableWf (s.plan.modifySlot i f).slots := Plan.tableWf_modifySlot hs.table fun x hx => by
    rw [hst]
    exact state_ne_empty_of_get hs.table hx
  have hslot : ∀ j x, (s.plan.modifySlot i f).slot? j = some x →
      ∃ y, s.plan.slot? j = some y ∧ x.state = y.state ∧ x.wall = y.wall := by
    intro j x hx
    rw [Plan.slot?_modifySlot] at hx
    split at hx
    · obtain ⟨y, hy, rfl⟩ := Option.map_eq_some_iff.1 hx
      exact ⟨y, hy, hst y, hw y⟩
    · exact ⟨x, hx, rfl, rfl⟩
  refine ⟨hwf, ⟨hs.line.1, fun d hd => ⟨(hs.line.2.1 d hd).1, ?_⟩, fun e he hc => ?_⟩, hs.clock, fun d hd => ?_,
    (Plan.wallLaw_iff hwf).2 fun j x hx => ?_⟩
  · obtain ⟨x, hx, hxc, hxt⟩ := hs.claimed hd
    rw [Plan.claimedBy_iff, State.modifySlot_plan, Plan.slot?_modifySlot]
    split
    · exact ⟨f x, by rw [hx]; rfl, (hst x).trans hxc, (ht x).trans hxt⟩
    · exact ⟨x, hx, hxc, hxt⟩
  · obtain ⟨y, hy, h, -⟩ := hslot e.1 e.2 ((Plan.mem_slots_iff hwf).1 he)
    exact hs.carried hy (h ▸ hc)
  · refine ⟨(hs.target d hd).1, fun h => ?_⟩
    obtain ⟨x, hx, hxg⟩ := (Option.any_eq_true _ _).1 ((hs.target d hd).2 h)
    rw [State.modifySlot_plan, Plan.slot?_modifySlot, hx]
    split
    · exact hg x hxg
    · exact hxg
  · obtain ⟨y, hy, h1, h2⟩ := hslot j x hx
    have := hs.stands hy
    unfold Plan.stands
    rw [h1, h2]
    exact this

/-- A carrier leaves the line and its slot is Claimed no more. -/
theorem State.Sound.of_leave (hs : s.Sound) {d : Carrier} (hd : d ∈ s.line)
    (hl : t.line = s.line.filter fun e => e.tag != d.tag) (hk : t.clock = s.clock) (hw : tableWf t.plan.slots)
    (hc : ∀ x, t.plan.slot? d.slot = some x → x.state ≠ .claimed)
    (ho : ∀ i, i ≠ d.slot → t.plan.slot? i = s.plan.slot? i)
    (hf : ∀ i x, t.plan.slot? i = some x → t.plan.stands x) : t.Sound := by
  have hmem : ∀ e ∈ t.line, e ∈ s.line ∧ e.slot ≠ d.slot := by
    intro e he
    rw [hl, List.mem_filter] at he
    refine ⟨he.1, fun h => ?_⟩
    have := hs.tag_eq hd he.1 h
    simp [this] at he
  refine ⟨hw, ⟨?_, fun e he => ?_, fun e he hec => ?_⟩, fun h => ?_, fun e he => ?_, (Plan.wallLaw_iff hw).2 hf⟩
  · rw [hl]
    exact hs.line.1.sublist (List.filter_sublist.map _)
  · obtain ⟨he, hne⟩ := hmem e he
    have := hs.line.2.1 e he
    rw [Plan.claimedBy_iff] at this ⊢
    rw [ho _ hne]
    exact this
  · have hx := (Plan.mem_slots_iff hw).1 he
    have hne : e.1 ≠ d.slot := fun h => hc e.2 (h ▸ hx) hec
    rw [ho _ hne] at hx
    obtain ⟨g, hg, hgs⟩ := hs.carried hx hec
    refine ⟨g, ?_, hgs⟩
    rw [hl, List.mem_filter]
    refine ⟨hg, ?_⟩
    rw [bne_iff_ne]
    intro h
    have := hs.eq_of_tag hd hg h
    exact hne (by rw [← hgs, this])
  · rw [hk]
    refine hs.clock fun hn => h ?_
    rw [hl, hn]
    rfl
  · obtain ⟨he, hne⟩ := hmem e he
    rw [ho _ hne]
    exact hs.target e he

/-! ### Settling deeds -/

theorem Plan.claimed_rejudged (p : Plan) (st : Option Nat) (ids : List Nat) (i : Nat) {x : Slot}
    (hx : x.state = .claimed) : (p.rejudged st ids).slot? i = some x ↔ p.slot? i = some x := by
  rw [Plan.slot?_rejudged]
  cases h : p.slot? i with
  | none => simp
  | some y =>
    rw [Option.map_some, Option.some.injEq, Option.some.injEq]
    split
    · cases hw : y.state.waiting
      · rw [Plan.judged_of_not_waiting hw]
      · have h' := Plan.judged_waiting (p := p) (st := st) hw
        constructor
        · rintro rfl
          rw [hx] at h'
          cases h'
        · rintro rfl
          rw [hx] at hw
          cases hw
    · exact Iff.rfl

/-- A judged record that is Ready meets the conditions, its wall Open among them. -/
theorem Plan.wall_opened_of_judged {p : Plan} {st : Option Nat} {x : Slot} (hw : x.state.waiting = true)
    (h : (p.judged st x).state = .ready) : (p.wall x.wall).state = .opened := by
  have hx : x.state = .planned ∨ x.state = .ready := by simpa [SlotState.waiting] using hw
  unfold Plan.judged at h
  rw [if_pos hx] at h
  dsimp only at h
  split at h
  · rename_i hr
    exact ((p.readyConditions_iff st x).1 hr).2.2.1
  · cases h

theorem SlotState.planned_fits_of_waiting {st : SlotState} {w : WallState} (h : st.waiting = true)
    (hf : st.fitsWall w = true) : SlotState.fitsWall .planned w = true := by
  cases st with
  | planned => exact hf
  | ready =>
    cases w with
    | opened => rfl
    | _ => cases hf
  | _ => cases h

/-- A judged record stands where a Planned one would. -/
theorem Plan.stands_judged {p : Plan} {st : Option Nat} {x : Slot} (hw : x.wall < Config.wallCount)
    (hf : (if x.state.waiting = true then SlotState.planned else x.state).fitsWall (p.wall x.wall).state = true) :
    p.stands (p.judged st x) := by
  refine ⟨by rwa [Plan.judged_wall], ?_⟩
  rw [Plan.judged_wall]
  cases h : x.state.waiting
  · rw [h] at hf
    rw [Plan.judged_of_not_waiting h]
    exact hf
  · rw [h] at hf
    have hj := Plan.judged_waiting (p := p) (st := st) h
    cases hst : (p.judged st x).state with
    | planned => exact hf
    | ready =>
      rw [Plan.wall_opened_of_judged h hst]
      rfl
    | _ =>
      rw [hst] at hj
      cases hj

theorem State.Sound.afterJudging (hs : s.Sound) (ids : List Nat) : (s.afterJudging ids).Sound := by
  refine hs.of_plan rfl id (Plan.tableWf_rejudged hs.table _ _)
    (fun i x hx => s.plan.claimed_rejudged _ ids i hx) fun i x hx => ?_
  replace hx : (s.plan.rejudged s.dispatcher.station ids).slot? i = some x := hx
  rw [Plan.slot?_rejudged] at hx
  obtain ⟨y, hy, rfl⟩ := Option.map_eq_some_iff.1 hx
  have hst := hs.stands hy
  show s.plan.stands _
  split
  · refine Plan.stands_judged hst.1 ?_
    split
    · rename_i h
      exact SlotState.planned_fits_of_waiting h hst.2
    · exact hst.2
  · exact hst

theorem State.Sound.rejudge (hs : s.Sound) (ids : List Nat) : (s.rejudge ids).Sound := by
  rw [State.rejudge_eq hs.table]
  exact hs.afterJudging ids

end

end Sys2Proof.Machine

namespace Sys2Proof.Machine

open Sys2Proof

section
variable {c : Instr} {s t : State} {b : Bool}

/-! ### Walls -/

/-- A slot that stands in a wall stands there, a Ready one judged anew, once the wall has moved. -/
theorem SlotState.fitsWall_of_moves {st : SlotState} {v w : WallState} (hm : v.moves w = true)
    (hf : st.fitsWall v = true) : (if st.waiting = true then SlotState.planned else st).fitsWall w = true := by
  unfold WallState.moves at hm
  split at hm
  · cases st <;> simp_all [SlotState.fitsWall, SlotState.waiting]
  · cases st <;> simp_all [SlotState.fitsWall, SlotState.waiting]
  · cases st <;> simp_all [SlotState.fitsWall, SlotState.waiting]
  · cases hm

theorem Plan.mem_slotsOf_iff {p : Plan} (hs : tableWf p.slots) {w i : Nat} :
    i ∈ (p.slotsOf w).map Prod.fst ↔ ∃ x, p.slot? i = some x ∧ x.wall = w := by
  unfold Plan.slotsOf
  constructor
  · intro h
    obtain ⟨e, he, rfl⟩ := List.mem_map.1 h
    obtain ⟨he, hw⟩ := List.mem_filter.1 he
    exact ⟨e.2, (Plan.mem_slots_iff hs).1 he, by simpa using hw⟩
  · rintro ⟨x, hx, hw⟩
    exact List.mem_map.2 ⟨(i, x), List.mem_filter.2 ⟨(Plan.mem_slots_iff hs).2 hx, by simpa using hw⟩, rfl⟩

theorem State.Sound.setWallState (hs : s.Sound) {w : Nat} {st : WallState}
    (hw : (s.plan.wall w).state.moves st = true) : (s.setWallState w st).Sound := by
  have hwf : tableWf (s.modifyWall w fun x => { x with state := st }).plan.slots := hs.table
  unfold State.setWallState State.rejudgeWall
  rw [State.rejudge_eq hwf]
  generalize hids : ((s.modifyWall w fun x => { x with state := st }).plan.slotsOf w).map Prod.fst = ids
  have hin : ∀ i x, s.plan.slot? i = some x → x.wall = w → i ∈ ids := fun i x hx hxw =>
    hids ▸ (Plan.mem_slotsOf_iff hwf).2 ⟨x, hx, hxw⟩
  refine hs.of_plan rfl id (Plan.tableWf_rejudged hwf _ _)
    (fun i x hx => Plan.claimed_rejudged _ _ ids i hx) fun i x hx => ?_
  replace hx : ((s.modifyWall w fun x => { x with state := st }).plan.rejudged s.dispatcher.station ids).slot? i
    = some x := hx
  rw [Plan.slot?_rejudged] at hx
  obtain ⟨y, hy, rfl⟩ := Option.map_eq_some_iff.1 hx
  replace hy : s.plan.slot? i = some y := hy
  have hst := hs.stands hy
  show (s.modifyWall w fun x => { x with state := st }).plan.stands _
  by_cases hyw : y.wall = w
  · rw [if_pos (by simpa using hin i y hy hyw)]
    refine Plan.stands_judged hst.1 ?_
    subst hyw
    rw [State.modifyWall_plan, Plan.wall_modifyWall_self _ hst.1]
    exact SlotState.fitsWall_of_moves hw hst.2
  · have hwall : ((s.modifyWall w fun x => { x with state := st }).plan.wall y.wall) = s.plan.wall y.wall :=
      Plan.wall_modifyWall_ne _ (Ne.symm hyw) _
    split
    · refine Plan.stands_judged hst.1 ?_
      rw [hwall]
      split
      · rename_i h
        exact SlotState.planned_fits_of_waiting h hst.2
      · exact hst.2
    · refine ⟨hst.1, ?_⟩
      rw [hwall]
      exact hst.2

theorem Settles.sound (h : Settles s t) (hs : s.Sound) : t.Sound := by
  cases h with
  | rejudge ids => exact hs.rejudge ids
  | reselect => exact hs.of_same rfl rfl id
  | wallState w st hw => exact hs.setWallState hw

/-! ### Quiet deeds -/

theorem fits_of_redrawn {p : Plan} {x y : Slot} (h : x.Redrawn y) (hx : p.stands x) : p.stands y := by
  unfold Plan.stands
  rw [h.wall, h.state]
  exact hx

/-- A target is issued: the front carrier becomes Targeted and its slot gains its target part (R56). -/
theorem State.Sound.issue (hs : s.Sound) {d : Carrier} (l : Nat) (g : Target) (corrected openLeft : Bool)
    (hd : d ∈ s.line) :
    ((s.modifyCarrier d.tag fun e => { e with stage := .targeted, left := some l, targeted := true }).modifySlot d.slot
      fun y => { y with target := some g, corrected := corrected, openLeft := openLeft }).Sound := by
  have hslot := hs.of_parts d.slot (f := fun y =>
    { y with target := some g, corrected := corrected, openLeft := openLeft })
    (fun _ => rfl) (fun _ => rfl) (fun _ => rfl) fun _ _ => rfl
  refine hslot.of_modifyCarrier d.tag (f := fun e => { e with stage := .targeted, left := some l, targeted := true })
    (fun _ => rfl) (fun _ => rfl) fun e he ht => ⟨fun _ => rfl, fun _ => ?_⟩
  have hed : e = d := hs.eq_of_tag hd he ht
  obtain ⟨x, hx, -⟩ := hs.claimed hd
  rw [hed, State.modifySlot_plan, Plan.slot?_modifySlot_self, hx]
  rfl

/-- A slot that is not Claimed becomes Empty (R133). -/
theorem State.Sound.erase (hs : s.Sound) {i : Nat} {x : Slot} (hx : s.plan.slot? i = some x)
    (hc : x.state ≠ .claimed) : (s.eraseSlot i).Sound := by
  refine hs.of_plan rfl id (Plan.tableWf_eraseSlot hs.table i) (fun j y hy => ?_) fun j y hy => ?_
  · rw [State.eraseSlot_plan, Plan.slot?_eraseSlot hs.table]
    split
    · rename_i h
      subst h
      rw [hx]
      refine ⟨(nomatch ·), fun h => ?_⟩
      cases h
      exact absurd hy hc
    · exact Iff.rfl
  · rw [State.eraseSlot_plan, Plan.slot?_eraseSlot hs.table] at hy
    split at hy
    · cases hy
    · exact hs.stands hy

theorem Quiet.sound (h : Quiet c s t) (hs : s.Sound) : t.Sound := by
  cases h with
  | clockSet v hc hl => exact hs.of_same rfl rfl fun _ => rfl
  | tick now hc ht hlt hst => exact hs.of_same rfl rfl fun _ => rfl
  | reports d st deadline hd hd' ht hf =>
    exact hs.of_modifyCarrier d.tag (fun _ => rfl) (fun _ => rfl) fun e he _ =>
      ⟨fun h => absurd h ht, (hs.target e he).2⟩
  | faults d hc hd =>
    exact hs.of_modifyCarrier d.tag (fun _ => rfl) (fun _ => rfl) fun e he _ =>
      ⟨(nomatch ·), (hs.target e he).2⟩
  | targets d l g corrected openLeft hd hf => exact hs.issue l g corrected openLeft (List.mem_of_head? hd)
  | wallParams w p audited hp => exact hs.of_modifyWall_state w fun _ => rfl
  | wallFlags w audited complete => exact hs.of_modifyWall_state w fun _ => rfl
  | brickType n g => exact hs.of_plan rfl id hs.table (fun _ _ _ => Iff.rfl) fun i x hx => hs.stands (i := i) hx
  | redraw i x f hx hf hc hr =>
    exact hs.of_modifySlot hx hc (hf.state ▸ hc) (fits_of_redrawn hf (hs.stands hx))
  | delete i x hx hst =>
    exact (hs.erase hx (by simp [hst])).of_modifyWall_state x.wall fun _ => rfl
  | _ => exact hs.of_same rfl rfl id

/-! ### Deeds that disturb the queue -/

/-- A brick is taken: a carrier joins at the tail and its slot, Ready before, becomes Claimed (R51). -/
theorem State.Sound.take (hs : s.Sound) {i : Nat} {x : Slot} (r : ClaimResult) (hx : s.plan.slot? i = some x)
    (hr : x.state = .ready) (hc : s.clock ≠ none) (hl : s.line.length < 8) :
    State.Sound { s with
      line := s.line ++ [claimCarrier s.freeTag i x r]
      plan := s.plan.modifySlot i fun y => { y with tag := some s.freeTag, state := .claimed } } := by
  obtain ⟨hlt, hfree, -⟩ := s.freeTag_lowest hl
  have hwf : tableWf (s.plan.modifySlot i fun y => { y with tag := some s.freeTag, state := .claimed }).slots :=
    Plan.tableWf_modifySlot hs.table fun _ _ => by simp
  have hne : ∀ d ∈ s.line, i ≠ d.slot := by
    rintro d hd rfl
    obtain ⟨y, hy, hyc, -⟩ := hs.claimed hd
    rw [hx] at hy
    cases hy
    rw [hr] at hyc
    cases hyc
  refine ⟨hwf, ⟨?_, fun d hd => ?_, fun e he hec => ?_⟩, fun _ => ?_, fun d hd => ?_, (Plan.wallLaw_iff hwf).2 ?_⟩
  · simp only [List.map_append, List.map_cons, List.map_nil]
    rw [List.nodup_append]
    refine ⟨hs.line.1, List.nodup_singleton _, fun n hn m hm => ?_⟩
    obtain ⟨d, hd, rfl⟩ := List.mem_map.1 hn
    rw [List.mem_singleton.1 hm]
    exact hfree d hd
  · rcases List.mem_append.1 hd with hd | hd
    · refine ⟨(hs.line.2.1 d hd).1, ?_⟩
      rw [Plan.claimedBy_iff, Plan.slot?_modifySlot_ne _ (hne d hd)]
      exact hs.claimed hd
    · rw [List.mem_singleton.1 hd]
      refine ⟨hlt, Plan.claimedBy_iff.2 ⟨{ x with tag := some s.freeTag, state := .claimed }, ?_, rfl, rfl⟩⟩
      show (s.plan.modifySlot i _).slot? i = _
      rw [Plan.slot?_modifySlot_self, hx]
      rfl
  · have hy := (Plan.mem_slots_iff hwf).1 he
    rw [Plan.slot?_modifySlot] at hy
    split at hy
    · rename_i h
      exact ⟨_, List.mem_append_right _ (List.mem_singleton_self _), h⟩
    · obtain ⟨d, hd, hds⟩ := hs.carried hy hec
      exact ⟨d, List.mem_append_left _ hd, hds⟩
  · exact Option.isSome_iff_ne_none.2 hc
  · rcases List.mem_append.1 hd with hd | hd
    · show _ ∧ (_ → ((s.plan.modifySlot i _).slot? d.slot).any _ = true)
      rw [Plan.slot?_modifySlot_ne _ (hne d hd)]
      exact hs.target d hd
    · rw [List.mem_singleton.1 hd]
      exact ⟨(nomatch ·), (nomatch ·)⟩
  · intro j y hy
    rw [Plan.slot?_modifySlot] at hy
    have hst := hs.stands hx
    split at hy
    · rename_i h
      subst h
      rw [hx] at hy
      cases hy
      refine ⟨hst.1, ?_⟩
      have := hst.2
      rw [hr] at this
      revert this
      show SlotState.fitsWall .ready (s.plan.wall x.wall).state = true →
        SlotState.fitsWall .claimed (s.plan.wall x.wall).state = true
      cases (s.plan.wall x.wall).state <;> simp [SlotState.fitsWall]
    · exact hs.stands hy

/-- The states a slot of a carrier can leave Claimed for fit the walls a Claimed slot stands in (R60, R61, R92, R93). -/
theorem SlotState.fitsWall_of_claimed {st : SlotState} {w : WallState} (h : SlotState.fitsWall .claimed w = true)
    (hst : st = .planned ∨ st = .set ∨ st = .suspect ∨ st = .fault) : st.fitsWall w = true := by
  cases w with
  | opened => rcases hst with rfl | rfl | rfl | rfl <;> rfl
  | paused => rcases hst with rfl | rfl | rfl | rfl <;> rfl
  | _ => cases h

/-- A carrier leaves, its slot entering one of the states it can leave Claimed for. -/
theorem State.Sound.leave (hs : s.Sound) {d : Carrier} (hd : d ∈ s.line) {f : Slot → Slot} {st : SlotState}
    (hst : st = .planned ∨ st = .set ∨ st = .suspect ∨ st = .fault) (hf : ∀ x, (f x).state = st)
    (hw : ∀ x, (f x).wall = x.wall) : ((s.removeCarrier d.tag).modifySlot d.slot f).Sound := by
  have hne : st ≠ .empty ∧ st ≠ .claimed := by rcases hst with rfl | rfl | rfl | rfl <;> simp
  obtain ⟨x, hx, hxc, -⟩ := hs.claimed hd
  refine hs.of_leave hd rfl rfl (Plan.tableWf_modifySlot hs.table fun y _ => ?_) (fun y hy => ?_) (fun i hi => ?_)
    fun i y hy => ?_
  · rw [hf]
    exact hne.1
  · rw [State.modifySlot_plan, Plan.slot?_modifySlot_self] at hy
    obtain ⟨z, -, rfl⟩ := Option.map_eq_some_iff.1 hy
    rw [hf]
    exact hne.2
  · exact Plan.slot?_modifySlot_ne _ (Ne.symm hi) _
  · rw [State.modifySlot_plan, State.removeCarrier_plan, Plan.slot?_modifySlot] at hy
    split at hy
    · rename_i h
      rw [← h, hx] at hy
      cases hy
      have hxs := hs.stands hx
      refine ⟨by rw [hw]; exact hxs.1, ?_⟩
      rw [hw, hf]
      have := hxs.2
      rw [hxc] at this
      exact SlotState.fitsWall_of_claimed this hst
    · exact hs.stands hy

theorem State.Sound.dropCarrier (hs : s.Sound) {d : Carrier} (hd : d ∈ s.line) : (s.dropCarrier d).Sound := by
  unfold State.dropCarrier State.returnToFault State.returnToPlanned
  split
  · have h := hs.leave hd (st := .fault) (f := fun x =>
      { ({ x.withdrawn with faultReason := some .drift } : Slot) with state := .fault })
      (.inr (.inr (.inr rfl))) (fun _ => rfl) fun _ => rfl
    exact h.of_same (by simp) (by simp) (by simp)
  · exact hs.leave hd (st := .planned) (.inl rfl) (fun _ => rfl) fun _ => rfl

/-- Where the front carrier leaves, the others are what is left of the line. -/
theorem State.Sound.line_dropCarrier (hs : s.Sound) {d : Carrier} {l : List Carrier} (hl : s.line = d :: l) :
    (s.dropCarrier d).line = l := by
  have hnd := hs.line.1
  rw [hl, List.map_cons, List.nodup_cons] at hnd
  rw [State.dropCarrier_line, hl, List.filter_cons, if_neg (by simp), List.filter_eq_self]
  intro e he
  rw [bne_iff_ne]
  intro h
  exact hnd.1 (h ▸ List.mem_map_of_mem he)

/-- What the carriers of a line keep as they leave one after another (R69), each keeping it as it leaves. -/
theorem State.foldl_dropCarrier_keeps {P : State → Prop}
    (hP : ∀ (u : State) (d : Carrier), u.Sound → P u → d ∈ u.line → P (u.dropCarrier d)) (l : List Carrier)
    (hs : s.Sound) (hl : s.line = l) (h : P s) :
    (l.foldl State.dropCarrier s).Sound ∧ P (l.foldl State.dropCarrier s) := by
  induction l generalizing s with
  | nil => exact ⟨hs, h⟩
  | cons d l ih =>
    have hd : d ∈ s.line := hl ▸ List.mem_cons_self
    exact ih (hs.dropCarrier hd) (hs.line_dropCarrier hl) (hP s d hs h hd)

theorem State.Sound.clearLine (hs : s.Sound) : s.clearLine.Sound :=
  (State.foldl_dropCarrier_keeps (P := fun _ => True) (fun _ _ _ _ _ => trivial) s.line hs rfl trivial).1

/-! ### Walls that close or are freed -/

/-- What a slot reads as after several are retired. -/
theorem State.slot?_foldl_retire (ids : List Nat) (s : State) (j : Nat) :
    (ids.foldl State.retire s).plan.slot? j
      = (s.plan.slot? j).map fun x => if j ∈ ids then { x with state := .retired } else x := by
  induction ids generalizing s with
  | nil => simp
  | cons i ids ih =>
    rw [List.foldl_cons, ih]
    unfold State.retire
    rw [State.enter_plan, Plan.slot?_modifySlot]
    by_cases h : i = j
    · subst h
      simp only [if_true, Option.map_map, List.mem_cons, true_or]
      congr 1
      funext x
      dsimp only [Function.comp, id]
      split <;> rfl
    · simp [h, Ne.symm h]

theorem State.walls_foldl_retire (ids : List Nat) (s : State) : (ids.foldl State.retire s).plan.walls = s.plan.walls := by
  induction ids generalizing s with
  | nil => rfl
  | cons i ids ih =>
    rw [List.foldl_cons, ih]
    unfold State.retire
    rw [State.enter_plan]
    rfl

theorem State.line_foldl_retire (ids : List Nat) (s : State) : (ids.foldl State.retire s).line = s.line := by
  induction ids generalizing s with
  | nil => rfl
  | cons i ids ih => rw [List.foldl_cons, ih]; exact State.enter_line ..

theorem State.clock_foldl_retire (ids : List Nat) (s : State) : (ids.foldl State.retire s).clock = s.clock := by
  induction ids generalizing s with
  | nil => rfl
  | cons i ids ih => rw [List.foldl_cons, ih]; exact State.enter_clock ..

/-- What a slot reads as once its wall has retired its slots. -/
theorem State.slot?_retireWall (hs : tableWf s.plan.slots) (w j : Nat) :
    (s.retireWall w).plan.slot? j
      = (s.plan.slot? j).map fun x => if x.wall = w then { x with state := .retired } else x := by
  unfold State.retireWall
  rw [State.slot?_foldl_retire]
  show (s.plan.slot? j).map _ = _
  cases hx : s.plan.slot? j with
  | none => rfl
  | some x =>
    simp only [Option.map_some, Plan.mem_slotsOf_iff hs, hx, Option.some.injEq, exists_eq_left']

/-- The table once a wall has retired its slots (R24). -/
theorem State.slots_retireWall (hs : tableWf s.plan.slots) (w : Nat) :
    (s.retireWall w).plan.slots
      = s.plan.slots.map fun e => (e.1, if e.2.wall = w then { e.2 with state := .retired } else e.2) := by
  have hkeys := keys_map s.plan.slots fun _ x => if x.wall = w then { x with state := .retired } else x
  have hwf : tableWf (s.retireWall w).plan.slots := State.tableWf_foldl_retire _ hs
  refine table_ext hwf.1 ?_ fun i => ?_
  · unfold tableSorted
    rw [hkeys]
    exact hs.1
  · refine (State.slot?_retireWall hs w i).trans ?_
    exact (tableGet_map s.plan.slots (fun _ x => if x.wall = w then { x with state := .retired } else x) i).symm

theorem State.wall_retireWall (s : State) (w v : Nat) :
    (s.retireWall w).plan.wall v = (s.plan.modifyWall w fun x => { x with state := .closed }).wall v := by
  unfold State.retireWall Plan.wall
  rw [State.walls_foldl_retire]
  rfl

/-- Every slot of a wall whose slots are all Set is Set (R24). -/
theorem Plan.set_of_allSet {p : Plan} (hs : tableWf p.slots) {w : Nat} (ha : p.allSet w = true) {i : Nat} {x : Slot}
    (hx : p.slot? i = some x) (hw : x.wall = w) : x.state = .set := by
  have := List.all_eq_true.1 ha (i, x)
    (List.mem_filter.2 ⟨(Plan.mem_slots_iff hs).2 hx, by simpa using hw⟩)
  simpa using this

theorem State.Sound.retireWall (hs : s.Sound) {w : Nat} (ha : s.plan.allSet w = true) : (s.retireWall w).Sound := by
  refine hs.of_plan (State.line_foldl_retire _ _) (fun h => ?_) (State.tableWf_foldl_retire _ hs.table)
    (fun i x hx => ?_) fun i x hx => ?_
  · unfold State.retireWall
    rw [State.clock_foldl_retire]
    exact h
  · rw [State.slot?_retireWall hs.table]
    cases hy : s.plan.slot? i with
    | none => simp
    | some y =>
      rw [Option.map_some, Option.some.injEq, Option.some.injEq]
      split
      · rename_i hyw
        have hset := Plan.set_of_allSet hs.table ha hy hyw
        constructor
        · rintro rfl
          cases hx
        · rintro rfl
          rw [hset] at hx
          cases hx
      · exact Iff.rfl
  · rw [State.slot?_retireWall hs.table] at hx
    obtain ⟨y, hy, rfl⟩ := Option.map_eq_some_iff.1 hx
    have hst := hs.stands hy
    unfold Plan.stands
    rw [State.wall_retireWall]
    split
    · rename_i hyw
      refine ⟨hst.1, ?_⟩
      dsimp only
      rw [← hyw, Plan.wall_modifyWall_self _ hst.1]
      rfl
    · rename_i hyw
      refine ⟨hst.1, ?_⟩
      rw [Plan.wall_modifyWall_ne _ (Ne.symm hyw)]
      exact hst.2

/-- What a slot reads as once a wall is freed. -/
theorem State.slot?_emptyWall (hs : tableWf s.plan.slots) (w j : Nat) :
    (s.emptyWall w).plan.slot? j = (s.plan.slot? j).filter fun x => x.wall ≠ w :=
  tableGet_filter hs.1 (fun e => e.2.wall ≠ w) j

/-- No Claimed slot stands in a wall that can be freed. -/
theorem SlotState.not_claimed_of_fits {w : WallState} (h : w = .draft ∨ w = .closed) {st : SlotState}
    (hf : st.fitsWall w = true) : st ≠ .claimed := by
  rintro rfl
  rcases h with rfl | rfl <;> cases hf

theorem State.Sound.emptyWall (hs : s.Sound) {w : Nat}
    (hw : (s.plan.wall w).state = .draft ∨ (s.plan.wall w).state = .closed) : (s.emptyWall w).Sound := by
  refine hs.of_plan rfl id (tableWf_filter hs.table _) (fun i x hx => ?_) fun i x hx => ?_
  · rw [State.slot?_emptyWall hs.table, Option.filter_eq_some_iff]
    refine ⟨fun h => h.1, fun h => ⟨h, ?_⟩⟩
    rw [decide_eq_true_eq]
    intro hxw
    exact SlotState.not_claimed_of_fits hw (hxw ▸ (hs.stands h).2) hx
  · rw [State.slot?_emptyWall hs.table, Option.filter_eq_some_iff] at hx
    have hst := hs.stands hx.1
    refine ⟨hst.1, ?_⟩
    have hne : w ≠ x.wall := Ne.symm (by simpa using hx.2)
    have : (s.emptyWall w).plan.wall x.wall = s.plan.wall x.wall := Plan.wall_modifyWall_ne _ hne _
    rw [this]
    exact hst.2

/-! ### Slots that are loaded -/

/-- An Empty slot takes a record that is not Claimed and stands. -/
theorem State.Sound.put (hs : s.Sound) {i : Nat} {y : Slot} (hi : i < Config.slotCount) (hx : s.plan.slot? i = none)
    (hc : y.state ≠ .claimed) (hy : s.plan.stands y) : (s.putSlot i y).Sound := by
  have hne : y.state ≠ .empty := by
    intro h
    have := hy.2
    rw [h] at this
    cases this
  refine hs.of_plan rfl id (Plan.tableWf_putSlot hs.table hi hne) (fun j x hxc => ?_) fun j x hj => ?_
  · rw [State.putSlot_plan, Plan.slot?_putSlot]
    split
    · rename_i h
      subst h
      rw [hx]
      refine ⟨fun h => ?_, (nomatch ·)⟩
      cases h
      exact absurd hxc hc
    · exact Iff.rfl
  · rw [State.putSlot_plan, Plan.slot?_putSlot] at hj
    split at hj
    · cases hj
      exact hy
    · exact hs.stands hj

/-- A queued slot is Ready (R38). -/
theorem State.ready_of_queued (hs : tableWf s.plan.slots) (hq : s.queueLaw) {i : Nat} {x : Slot}
    (hi : i ∈ s.dispatcher.queue) (hx : s.plan.slot? i = some x) : x.state = .ready := by
  unfold State.queueLaw at hq
  rw [hq] at hi
  obtain ⟨y, hy, hr⟩ := Plan.ready_of_mem_queue hs hi
  rw [hx] at hy
  cases hy
  exact hr

/-- No slot stands in a Free wall. -/
theorem SlotState.fitsWall_free (st : SlotState) : st.fitsWall .free = false := by cases st <;> rfl

/-- Walls a Ready slot stands in admit one in Fault, and so on for the answers to Fault and Suspect. -/
theorem SlotState.fitsWall_fault_of_ready {w : WallState} (h : SlotState.fitsWall .ready w = true) :
    SlotState.fitsWall .fault w = true := by
  cases w with
  | opened => rfl
  | _ => cases h

theorem SlotState.fitsWall_planned_of_fault {w : WallState} (h : SlotState.fitsWall .fault w = true) :
    SlotState.fitsWall .planned w = true := by
  cases w with
  | opened => rfl
  | paused => rfl
  | _ => cases h

theorem SlotState.fitsWall_of_suspect {w : WallState} (h : SlotState.fitsWall .suspect w = true) :
    SlotState.fitsWall .planned w = true ∧ SlotState.fitsWall .set w = true := by
  cases w with
  | opened => exact ⟨rfl, rfl⟩
  | paused => exact ⟨rfl, rfl⟩
  | _ => cases h

theorem Disturb.sound (h : Disturb c s t) (hs : s.Sound) (hq : s.queueLaw) : t.Sound := by
  cases h with
  | fault i x r hi hx =>
    have hr := State.ready_of_queued hs.table hq hi hx
    have hst := hs.stands hx
    exact hs.of_modifySlot hx (by simp [hr]) (by simp)
      ⟨hst.1, SlotState.fitsWall_fault_of_ready (hr ▸ hst.2)⟩
  | take i x r hcl hi hx hh hc hl => exact hs.take r hx (State.ready_of_queued hs.table hq hi hx) hc hl
  | lay d x st a late hd hx hst ht =>
    rw [← State.layBrick_eq s d x st a late hx]
    unfold State.layBrick
    have hl := hs.leave hd (st := st) (f := fun y =>
      { ({ y with tag := none, asLaid := some a, late := late } : Slot) with state := st })
      (.inr (hst.imp_right .inl)) (fun _ => rfl) fun _ => rfl
    exact (hl.of_modifyWall_state x.wall (f := fun w => { w with laidCount := w.laidCount + 1 })
      fun _ => rfl).of_same (by simp; rfl) (by simp) (by simp)
  | drop d x hc hd hx => exact hs.dropCarrier hd
  | clearLine hc => exact hs.clearLine
  | define w p n hw hp hn =>
    refine hs.of_modifyWall w _ fun i x hx hxw => ?_
    have := (hs.stands hx).2
    rw [hxw, hw, SlotState.fitsWall_free] at this
    cases this
  | priority w n hn => exact hs.of_modifyWall_state w fun _ => rfl
  | retireWall w hw ha => exact hs.retireWall ha
  | emptyWall w hw hst => exact hs.emptyWall hst
  | load i f hi hx hw hd =>
    refine (hs.put hi hx (by simp [slotOfFields]) ⟨hw, ?_⟩).of_modifyWall_state _ fun _ => rfl
    show SlotState.fitsWall .planned (s.plan.wall f.wall.toNat).state = true
    rw [hd]
    rfl
  | restore i f a hi hx hw hd =>
    have hput := hs.put (y := { slotOfFields f .set with state := .set, asLaid := some a }) hi hx (by simp) ⟨hw, ?_⟩
    · have hgain := hput.of_modifyWall_state f.wall.toNat (f := fun x => { x with slotCount := x.slotCount + 1 })
        fun _ => rfl
      exact hgain.of_modifyWall_state f.wall.toNat (f := fun x => { x with laidCount := x.laidCount + 1 }) fun _ => rfl
    · show SlotState.fitsWall .set (s.plan.wall f.wall.toNat).state = true
      rw [hd]
      rfl
  | redraw i x f hx hf hc => exact hs.of_modifySlot hx hc (hf.state ▸ hc) (fits_of_redrawn hf (hs.stands hx))
  | clear i x hx hst =>
    have hxs := hs.stands hx
    exact hs.of_modifySlot hx (by simp [hst]) (by simp)
      ⟨hxs.1, SlotState.fitsWall_planned_of_fault (hst ▸ hxs.2)⟩
  | accept i x hx hst =>
    have hxs := hs.stands hx
    exact hs.of_modifySlot hx (by simp [hst]) (by simp) ⟨hxs.1, (SlotState.fitsWall_of_suspect (hst ▸ hxs.2)).2⟩
  | lift i x hx hst =>
    have hxs := hs.stands hx
    exact (hs.of_modifySlot hx (by simp [hst]) (by simp [Slot.lifted])
      ⟨hxs.1, (SlotState.fitsWall_of_suspect (hst ▸ hxs.2)).1⟩).of_modifyWall_state _ fun _ => rfl

/-- A way of deeds keeps the laws, and the queue's where it ends settled. -/
theorem Way.consistent (h : Way c s b t) (hs : s.Sound) (hq : s.queueLaw) :
    t.Sound ∧ (b = true → t.queueLaw) := by
  induction h with
  | start => exact ⟨hs, fun _ => hq⟩
  | quiet _ hd ih => exact ⟨hd.sound ih.1, fun hb => hd.queueLaw ih.1.table (ih.2 hb)⟩
  | disturb _ hd ih => exact ⟨hd.sound ih.1 (ih.2 rfl), fun hb => by cases hb⟩
  | settle _ hd ih => exact ⟨hd.sound ih.1, fun _ => hd.queueLaw⟩

theorem State.consistent_iff : s.Consistent ↔ s.Sound ∧ s.queueLaw :=
  ⟨fun h => ⟨⟨h.table, h.line, h.clock, h.target, h.walls⟩, h.queue⟩,
    fun h => ⟨h.1.table, h.2, h.1.line, h.1.clock, h.1.target, h.1.walls⟩⟩

theorem Way.keepsConsistent (h : Way c s true t) (hs : s.Consistent) : t.Consistent := by
  obtain ⟨sound, queue⟩ := State.consistent_iff.1 hs
  obtain ⟨sound', queue'⟩ := h.consistent sound queue
  exact State.consistent_iff.2 ⟨sound', queue' rfl⟩

theorem State.Consistent.sameInside (h : s.SameInside t) (hs : s.Consistent) : t.Consistent := by
  unfold State.SameInside at h
  rw [h]
  exact ⟨hs.table, hs.queue, hs.line, hs.clock, hs.target, hs.walls⟩

theorem State.consistent_powerOn (code : Option EngineerCode) (estop : Bool) (inputs : List (Port × LinkInput))
    (pending : List Instr) : (State.powerOn code estop inputs pending).Consistent where
  table := tableWf_reset
  queue := rfl
  line := ⟨List.nodup_nil, (fun _ h => nomatch h), fun _ h => nomatch h⟩
  clock := fun h => absurd rfl h
  target := fun _ h => nomatch h
  walls := fun _ h => nomatch h

/-! ### The Faulted carrier (R57) -/

theorem faultedLaw_modifyCarrier (hf : s.faultedLaw) (n : Nat) {f : Carrier → Carrier}
    (hn : ∀ d ∈ s.line.tail, d.tag = n → (f d).stage ≠ .faulted) : (s.modifyCarrier n f).faultedLaw := by
  intro d hd
  rw [State.modifyCarrier_line, ← List.map_tail] at hd
  obtain ⟨e, he, rfl⟩ := List.mem_map.1 hd
  split
  · rename_i h
    exact hn e he (by simpa using h)
  · exact hf e he

/-- Whichever carriers leave, one behind the front stood behind it before. -/
theorem faultedLaw_of_filter (hf : s.faultedLaw) (q : Carrier → Bool) (hl : t.line = s.line.filter q) :
    t.faultedLaw := by
  intro d hd
  rw [hl] at hd
  exact hf d ((List.filter_sublist (l := s.line)).tail.subset hd)

theorem Quiet.faultedLaw (h : Quiet c s t) (hs : s.Sound) (hf : s.faultedLaw) : t.faultedLaw := by
  cases h with
  | reports d st deadline hd hd' ht hst => exact faultedLaw_modifyCarrier hf d.tag fun _ _ _ => hst
  | faults d hc hd =>
    refine faultedLaw_modifyCarrier hf d.tag fun e he ht => ?_
    obtain ⟨l, hl⟩ : ∃ l, s.line = d :: l := List.head?_eq_some_iff.1 hd
    have hnd := hs.line.1
    rw [hl, List.map_cons, List.nodup_cons] at hnd
    rw [hl] at he
    exact absurd (ht ▸ List.mem_map_of_mem he) hnd.1
  | targets d l g corrected openLeft hd hst =>
    exact faultedLaw_modifyCarrier hf d.tag fun _ _ _ => by simp
  | _ => exact hf

theorem Disturb.faultedLaw (h : Disturb c s t) (hf : s.faultedLaw) : t.faultedLaw := by
  cases h with
  | take i x r hcl hi hx hh hc hl =>
    intro d hd
    cases hl : s.line with
    | nil =>
      rw [hl] at hd
      cases hd
    | cons e l =>
      rw [hl] at hd
      rcases List.mem_append.1 (show d ∈ l ++ [claimCarrier s.freeTag i x r] from hd) with hd | hd
      · exact hf d (hl ▸ hd)
      · rw [List.mem_singleton.1 hd]
        simp [claimCarrier]
  | lay d x st a late hd hx hst ht => exact faultedLaw_of_filter hf (fun e => e.tag ≠ d.tag) rfl
  | drop d x hc hd hx => exact faultedLaw_of_filter hf _ (State.dropCarrier_line s d)
  | clearLine hc =>
    intro d hd
    rw [State.clearLine_line] at hd
    cases hd
  | retireWall w hw ha =>
    unfold State.faultedLaw State.retireWall
    rw [State.line_foldl_retire]
    exact hf
  | _ => exact hf

theorem Settles.faultedLaw (h : Settles s t) (hf : s.faultedLaw) : t.faultedLaw := by
  cases h with
  | rejudge ids =>
    unfold State.faultedLaw
    rw [(s.judgedInto_rejudge ids).line]
    exact hf
  | reselect => exact hf
  | wallState w st hw =>
    unfold State.faultedLaw State.setWallState State.rejudgeWall
    rw [(State.judgedInto_rejudge _ _).line]
    exact hf

theorem Way.faultedLaw (h : Way c s b t) (hs : s.Sound) (hq : s.queueLaw) (hf : s.faultedLaw) : t.faultedLaw := by
  induction h with
  | start => exact hf
  | quiet hw hd ih => exact hd.faultedLaw (hw.consistent hs hq).1 ih
  | disturb _ hd ih => exact hd.faultedLaw ih
  | settle _ hd ih => exact hd.faultedLaw ih

end

/-- The laws together with the Faulted carrier's. -/
def State.ConsistentFront (s : State) : Prop := s.Consistent ∧ s.faultedLaw

/-- Settles O58: deed by deed. The queue's law says that what a Claim takes or faults was Ready, the boom line law that a
carrier that leaves is the one its slot was Claimed for. -/
theorem stepKeepsConsistent : Obligations.StepKeepsConsistent := by
  unfold Obligations.StepKeepsConsistent
  intro s t hs h
  refine ⟨step_keeps (P := State.Consistent) State.Consistent.sameInside Way.keepsConsistent
    State.consistent_powerOn h hs, fun hf => ?_⟩
  refine (step_keeps (P := State.ConsistentFront) (fun hin hs => ⟨hs.1.sameInside hin, ?_⟩) (fun way hs => ?_)
    (fun _ _ _ _ => ⟨State.consistent_powerOn _ _ _ _, fun _ h => nomatch h⟩) h ⟨hs, hf⟩).2
  · unfold State.SameInside at hin
    rw [hin]
    exact hs.2
  · obtain ⟨sound, queue⟩ := State.consistent_iff.1 hs.1
    exact ⟨way.keepsConsistent hs.1, way.faultedLaw sound queue hs.2⟩

end Sys2Proof.Machine

/-! PROOFS of what every slot holds and of the walls' counts (sections 1.1 and 1.2): every deed keeps the optional parts
those a slot's state calls for, and moves a wall's counts with the slots it changes. -/

namespace Sys2Proof.Machine

open Sys2Proof

section
variable {c : Instr} {s t : State} {p q : Plan} {b : Bool}

/-! ### Optional parts (R4 to R6) -/

/-- One record changes into one that fits. -/
theorem Plan.partsLaw_modifySlot (hs : tableWf p.slots) (hp : p.partsLaw) {i : Nat} {x : Slot} {f : Slot → Slot}
    (hx : p.slot? i = some x) (hf : x.partsFit = true → (f x).partsFit = true) : (p.modifySlot i f).partsLaw := by
  intro e he
  rcases mem_modify he with ⟨y, hy, rfl⟩ | ⟨-, he⟩
  · have hyx := (Plan.mem_slots_iff hs).1 hy
    rw [hx] at hyx
    cases hyx
    exact hf (hp _ hy)
  · exact hp e he

theorem Plan.partsLaw_putSlot (hp : p.partsLaw) {i : Nat} {y : Slot} (hy : y.partsFit = true) :
    (p.putSlot i y).partsLaw := by
  intro e he
  rcases mem_put he with rfl | he
  · exact hy
  · exact hp e he

theorem Plan.partsLaw_of_subset (hp : p.partsLaw) (h : ∀ e ∈ q.slots, e ∈ p.slots) : q.partsLaw :=
  fun e he => hp e (h e he)

/-- The parts as the table under R6 has them. -/
theorem Slot.partsFit_iff {x : Slot} : x.partsFit = true ↔
    (x.tag.isSome = true ↔ x.state = .claimed) ∧ (x.asLaid.isSome = true ↔ x.state.laid = true)
      ∧ (x.faultReason.isSome = true ↔ x.state = .fault)
      ∧ (x.target.isSome = true → x.state = .claimed ∨ x.state.laid = true)
      ∧ (x.state = .suspect → x.target.isSome = true) ∧ (x.late = true → x.asLaid.isSome = true)
      ∧ (x.openLeft = true ∨ x.corrected = true → x.target.isSome = true) := by
  have hst : ∀ (a : Bool) (st : SlotState), ((a == (x.state == st)) = true) ↔ (a = true ↔ x.state = st) := by
    intro a st
    cases a <;> simp
  have hb : ∀ a d : Bool, ((a == d) = true) ↔ (a = true ↔ d = true) := by decide
  have hor : ∀ a d : Bool, ((!a || d) = true) ↔ (a = true → d = true) := by decide
  have htarget : ((x.target.isNone || x.state == .claimed || x.state.laid) = true)
      ↔ (x.target.isSome = true → x.state = .claimed ∨ x.state.laid = true) := by
    cases x.target <;> simp
  have hsuspect : ((x.state != .suspect || x.target.isSome) = true)
      ↔ (x.state = .suspect → x.target.isSome = true) := by
    rw [Bool.or_eq_true, bne_iff_ne, ne_eq, ← imp_iff_not_or]
  unfold Slot.partsFit
  rw [Bool.and_eq_true, Bool.and_eq_true, Bool.and_eq_true, Bool.and_eq_true, Bool.and_eq_true, Bool.and_eq_true,
    hst, hb, hst, htarget, hsuspect, hor, hor, Bool.or_eq_true]
  simp only [and_assoc]

/-- Planned and Ready call for the same parts. -/
theorem Slot.partsFit_waiting {x : Slot} {st : SlotState} (hx : x.state.waiting = true) (hst : st.waiting = true) :
    Slot.partsFit { x with state := st } = x.partsFit := by
  have hx : x.state = .planned ∨ x.state = .ready := by simpa [SlotState.waiting] using hx
  have hst : st = .planned ∨ st = .ready := by simpa [SlotState.waiting] using hst
  rw [Bool.eq_iff_iff, Slot.partsFit_iff, Slot.partsFit_iff]
  rcases hx with hx | hx <;> rcases hst with rfl | rfl <;> simp [hx, SlotState.laid]

theorem Plan.partsFit_judged (p : Plan) (st : Option Nat) (x : Slot) : (p.judged st x).partsFit = x.partsFit := by
  cases h : x.state.waiting
  · rw [Plan.judged_of_not_waiting h]
  · rw [Plan.judged_eq]
    exact Slot.partsFit_waiting h (Plan.judged_waiting h)

theorem Plan.partsLaw_rejudged (hp : p.partsLaw) (st : Option Nat) (ids : List Nat) :
    (p.rejudged st ids).partsLaw := by
  intro e he
  obtain ⟨d, hd, rfl⟩ := List.mem_map.1 he
  dsimp only
  split
  · rw [Plan.partsFit_judged]
    exact hp d hd
  · exact hp d hd

theorem Slot.Redrawn.partsFit {x y : Slot} (h : x.Redrawn y) : y.partsFit = x.partsFit := by
  simp [Slot.partsFit, h.state, h.tag, h.asLaid, h.faultReason, h.target, h.late, h.openLeft, h.corrected]

theorem Slot.partsFit_issued {x : Slot} (h : x.partsFit = true) (hc : x.state = .claimed) (g : Target)
    (corrected openLeft : Bool) :
    Slot.partsFit { x with target := some g, corrected := corrected, openLeft := openLeft } = true := by
  rw [Slot.partsFit_iff] at h ⊢
  obtain ⟨htag, hlaid, hfault, -, hsuspect, hlate, -⟩ := h
  exact ⟨htag, hlaid, hfault, fun _ => .inl hc, fun _ => rfl, hlate, fun _ => rfl⟩

theorem Slot.partsFit_faulted {x : Slot} (h : x.partsFit = true) (hr : x.state = .ready) (r : FaultReason) :
    Slot.partsFit { x with state := .fault, faultReason := some r } = true := by
  rw [Slot.partsFit_iff] at h ⊢
  obtain ⟨htag, hlaid, hfault, htarget, hsuspect, hlate, hflags⟩ := h
  simp_all [SlotState.laid]

theorem Slot.partsFit_taken {x : Slot} (h : x.partsFit = true) (hr : x.state = .ready) (n : Nat) :
    Slot.partsFit { x with tag := some n, state := .claimed } = true := by
  rw [Slot.partsFit_iff] at h ⊢
  obtain ⟨htag, hlaid, hfault, htarget, hsuspect, hlate, hflags⟩ := h
  simp_all [SlotState.laid]

theorem Slot.partsFit_laid {x : Slot} (h : x.partsFit = true) (hc : x.state = .claimed)
    (hg : x.target.isSome = true) (st : SlotState) (hst : st = .set ∨ st = .suspect) (a : AsLaid) (late : Bool) :
    Slot.partsFit { x with state := st, tag := none, asLaid := some a, late := late } = true := by
  rw [Slot.partsFit_iff] at h ⊢
  obtain ⟨htag, hlaid, hfault, htarget, hsuspect, hlate, hflags⟩ := h
  rcases hst with rfl | rfl <;> simp_all [SlotState.laid]

theorem Slot.partsFit_returned {x : Slot} (h : x.partsFit = true) (hc : x.state = .claimed) :
    Slot.partsFit { x.withdrawn with state := .planned } = true := by
  rw [Slot.partsFit_iff] at h ⊢
  obtain ⟨htag, hlaid, hfault, htarget, hsuspect, hlate, hflags⟩ := h
  simp_all [SlotState.laid, Slot.withdrawn]

theorem Slot.partsFit_drifted {x : Slot} (h : x.partsFit = true) (hc : x.state = .claimed) :
    Slot.partsFit { ({ x.withdrawn with faultReason := some .drift } : Slot) with state := .fault } = true := by
  rw [Slot.partsFit_iff] at h ⊢
  obtain ⟨htag, hlaid, hfault, htarget, hsuspect, hlate, hflags⟩ := h
  simp_all [SlotState.laid, Slot.withdrawn]

theorem Slot.partsFit_retired {x : Slot} (h : x.partsFit = true) (hs : x.state = .set) :
    Slot.partsFit { x with state := .retired } = true := by
  rw [Slot.partsFit_iff] at h ⊢
  obtain ⟨htag, hlaid, hfault, htarget, hsuspect, hlate, hflags⟩ := h
  simp_all [SlotState.laid]

theorem Slot.partsFit_cleared {x : Slot} (h : x.partsFit = true) (hs : x.state = .fault) :
    Slot.partsFit { x with state := .planned, faultReason := none } = true := by
  rw [Slot.partsFit_iff] at h ⊢
  obtain ⟨htag, hlaid, hfault, htarget, hsuspect, hlate, hflags⟩ := h
  simp_all [SlotState.laid]

theorem Slot.partsFit_accepted {x : Slot} (h : x.partsFit = true) (hs : x.state = .suspect) :
    Slot.partsFit { x with state := .set } = true := by
  rw [Slot.partsFit_iff] at h ⊢
  obtain ⟨htag, hlaid, hfault, htarget, hsuspect, hlate, hflags⟩ := h
  simp_all [SlotState.laid]

theorem Slot.partsFit_lifted {x : Slot} (h : x.partsFit = true) (hs : x.state = .suspect) :
    x.lifted.partsFit = true := by
  rw [Slot.partsFit_iff] at h ⊢
  obtain ⟨htag, hlaid, hfault, htarget, hsuspect, hlate, hflags⟩ := h
  simp_all [SlotState.laid, Slot.lifted]

theorem Quiet.partsLaw (h : Quiet c s t) (hs : s.Sound) (hp : s.plan.partsLaw) : t.plan.partsLaw := by
  cases h with
  | targets d l g corrected openLeft hd hf =>
    obtain ⟨x, hx, hxc, -⟩ := hs.claimed (List.mem_of_head? hd)
    exact Plan.partsLaw_modifySlot (p := s.plan) hs.table hp hx fun hfit =>
      Slot.partsFit_issued hfit hxc g corrected openLeft
  | redraw i x f hx hf hc hr => exact Plan.partsLaw_modifySlot hs.table hp hx hf.partsFit.trans
  | delete i x hx hst => exact Plan.partsLaw_of_subset (p := s.plan) hp fun e he => (List.mem_filter.1 he).1
  | _ => exact hp

theorem State.partsLaw_dropCarrier (hs : s.Sound) (hp : s.plan.partsLaw) {d : Carrier} (hd : d ∈ s.line) :
    (s.dropCarrier d).plan.partsLaw := by
  obtain ⟨x, hx, hxc, -⟩ := hs.claimed hd
  unfold State.dropCarrier State.returnToFault State.returnToPlanned
  split
  · rw [State.latchPlanFault_plan, State.enter_plan]
    exact Plan.partsLaw_modifySlot (p := s.plan) hs.table hp hx fun hfit => Slot.partsFit_drifted hfit hxc
  · exact Plan.partsLaw_modifySlot (p := s.plan) hs.table hp hx fun hfit => Slot.partsFit_returned hfit hxc

/-- The slot of a carrier that may be laid has its target part (R56, R89). -/
theorem State.Sound.target_of_layable (hs : s.Sound) {d : Carrier} (hd : d ∈ s.line)
    (ht : d.stage = .targeted ∨ (d.stage = .expired ∧ d.targeted = true)) {x : Slot}
    (hx : s.plan.slot? d.slot = some x) : x.target.isSome = true := by
  obtain ⟨hflag, hpart⟩ := hs.target d hd
  have := hpart (ht.elim hflag And.right)
  rw [hx] at this
  exact this

theorem Disturb.partsLaw (h : Disturb c s t) (hs : s.Sound) (hq : s.queueLaw) (hp : s.plan.partsLaw) :
    t.plan.partsLaw := by
  cases h with
  | fault i x r hi hx =>
    exact Plan.partsLaw_modifySlot hs.table hp hx fun hfit =>
      Slot.partsFit_faulted hfit (State.ready_of_queued hs.table hq hi hx) r
  | take i x r hcl hi hx hh hc hl =>
    exact Plan.partsLaw_modifySlot hs.table hp hx fun hfit =>
      Slot.partsFit_taken hfit (State.ready_of_queued hs.table hq hi hx) _
  | lay d x st a late hd hx hst ht =>
    obtain ⟨y, hy, hyc, -⟩ := hs.claimed hd
    rw [hx] at hy
    cases hy
    exact Plan.partsLaw_modifySlot (p := s.plan.modifyWall x.wall _) hs.table hp hx fun hfit =>
      Slot.partsFit_laid hfit hyc (hs.target_of_layable hd ht hx) st hst a late
  | drop d x hc hd hx => exact State.partsLaw_dropCarrier hs hp hd
  | clearLine hc =>
    exact (State.foldl_dropCarrier_keeps (P := fun u => u.plan.partsLaw)
      (fun u d hu hup hd => State.partsLaw_dropCarrier hu hup hd) s.line hs rfl hp).2
  | retireWall w hw ha =>
    intro e he
    rw [State.slots_retireWall hs.table] at he
    obtain ⟨d, hd, rfl⟩ := List.mem_map.1 he
    dsimp only
    split
    · rename_i hdw
      exact Slot.partsFit_retired (hp d hd)
        (Plan.set_of_allSet hs.table ha ((Plan.mem_slots_iff hs.table).1 hd) hdw)
    · exact hp d hd
  | emptyWall w hw hst => exact Plan.partsLaw_of_subset hp fun e he => (List.mem_filter.1 he).1
  | load i f hi hx hw hd => exact Plan.partsLaw_putSlot hp (by simp [Slot.partsFit_iff, slotOfFields, SlotState.laid])
  | restore i f a hi hx hw hd =>
    exact Plan.partsLaw_putSlot hp (by simp [Slot.partsFit_iff, slotOfFields, SlotState.laid])
  | redraw i x f hx hf hc => exact Plan.partsLaw_modifySlot hs.table hp hx hf.partsFit.trans
  | clear i x hx hst => exact Plan.partsLaw_modifySlot hs.table hp hx fun hfit => Slot.partsFit_cleared hfit hst
  | accept i x hx hst => exact Plan.partsLaw_modifySlot hs.table hp hx fun hfit => Slot.partsFit_accepted hfit hst
  | lift i x hx hst => exact Plan.partsLaw_modifySlot hs.table hp hx fun hfit => Slot.partsFit_lifted hfit hst
  | _ => exact hp

theorem Settles.partsLaw (h : Settles s t) (hs : Machine.tableWf s.plan.slots) (hp : s.plan.partsLaw) :
    t.plan.partsLaw := by
  cases h with
  | rejudge ids =>
    rw [State.rejudge_eq hs]
    exact Plan.partsLaw_rejudged hp _ _
  | reselect => exact hp
  | wallState w st hw =>
    unfold State.setWallState State.rejudgeWall
    rw [State.rejudge_eq (s := s.modifyWall w fun x => { x with state := st }) hs]
    exact Plan.partsLaw_rejudged (p := (s.modifyWall w fun x => { x with state := st }).plan) hp _ _

/-! ### The counts (R9) -/

/-- How many slots of the table are of a kind. -/
def Plan.tally (p : Plan) (k : Slot → Bool) : Nat := p.slots.countP fun e => k e.2

/-- The slots of a wall, and those of them that are laid. -/
def inWall (w : Nat) (x : Slot) : Bool := x.wall = w
def laidInWall (w : Nat) (x : Slot) : Bool := x.wall = w ∧ x.state.laid = true

theorem Plan.countsLaw_iff : p.countsLaw ↔ ∀ w < Config.wallCount,
    (p.wall w).slotCount = p.tally (inWall w) ∧ (p.wall w).laidCount = p.tally (laidInWall w) := by
  have h1 : ∀ w, (p.slotsOf w).length = p.tally (inWall w) := fun w => by
    rw [Plan.slotsOf, ← List.countP_eq_length_filter]
    rfl
  have h2 : ∀ w, ((p.slotsOf w).filter fun e => e.2.state.laid).length = p.tally (laidInWall w) := fun w => by
    rw [Plan.slotsOf, List.filter_filter, ← List.countP_eq_length_filter]
    refine List.countP_congr fun e _ => ?_
    simp [laidInWall, and_comm]
  unfold Plan.countsLaw
  simp only [h1, h2]

/-- One record changes: the tally loses the one that stood and gains the one that stands. -/
theorem Plan.tally_modifySlot (hs : tableWf p.slots) {i : Nat} {x : Slot} {f : Slot → Slot}
    (hx : p.slot? i = some x) (k : Slot → Bool) :
    (p.modifySlot i f).tally k + (k x).toNat = p.tally k + (k (f x)).toNat := by
  have : ∀ l : SlotTable, tableSorted l → tableGet l i = some x →
      (tableModify l i f).countP (fun e => k e.2) + (k x).toNat = l.countP (fun e => k e.2) + (k (f x)).toNat := by
    intro l hl hg
    induction l with
    | nil => cases hg
    | cons e l ih =>
      rw [tableSorted_cons] at hl
      rw [tableGet_cons] at hg
      have hcons : tableModify (e :: l) i f = (if e.1 = i then (e.1, f e.2) else e) :: tableModify l i f := rfl
      rw [hcons, List.countP_cons, List.countP_cons]
      by_cases he : e.1 = i
      · rw [if_pos he] at hg
        cases hg
        have hrest : tableModify l i f = l := by
          unfold tableModify
          conv_rhs => rw [← List.map_id l]
          refine List.map_congr_left fun d hd => ?_
          have := hl.1 d hd
          rw [if_neg (by omega)]
          rfl
        rw [hrest, if_pos he]
        cases k e.2 <;> cases k (f e.2) <;> simp
      · rw [if_neg he] at hg
        have := ih hl.2 hg
        rw [if_neg he]
        omega
  exact this p.slots hs.1 hx

/-- A change that leaves a record of its kind leaves the tally. -/
theorem Plan.tally_modifySlot_same (hs : tableWf p.slots) {i : Nat} {f : Slot → Slot} {k : Slot → Bool}
    (hk : ∀ x, p.slot? i = some x → k (f x) = k x) : (p.modifySlot i f).tally k = p.tally k := by
  unfold Plan.tally Plan.modifySlot tableModify
  rw [List.countP_map]
  refine List.countP_congr fun e he => ?_
  dsimp only [Function.comp]
  split
  · rename_i h
    rw [hk e.2 (h ▸ (Plan.mem_slots_iff hs).1 he)]
  · exact Iff.rfl

theorem Plan.tally_putSlot {i : Nat} {y : Slot} (hx : p.slot? i = none) (k : Slot → Bool) :
    (p.putSlot i y).tally k = p.tally k + (k y).toNat := by
  have : ∀ l : SlotTable, tableGet l i = none →
      (tablePut l i y).countP (fun e => k e.2) = l.countP (fun e => k e.2) + (k y).toNat := by
    intro l hg
    induction l with
    | nil => cases h : k y <;> simp [tablePut, h]
    | cons e l ih =>
      obtain ⟨j, z⟩ := e
      rw [tableGet_cons] at hg
      have hne : j ≠ i := by
        rintro rfl
        rw [if_pos rfl] at hg
        cases hg
      rw [if_neg hne] at hg
      unfold tablePut
      split
      · rw [List.countP_cons]
        cases h : k y <;> simp
      · rw [if_neg (Ne.symm hne), List.countP_cons, List.countP_cons, ih hg]
        omega
  exact this p.slots hx

theorem Plan.tally_eraseSlot (hs : tableWf p.slots) {i : Nat} {x : Slot} (hx : p.slot? i = some x)
    (k : Slot → Bool) : (p.eraseSlot i).tally k + (k x).toNat = p.tally k := by
  have : ∀ l : SlotTable, tableSorted l → tableGet l i = some x →
      (tableErase l i).countP (fun e => k e.2) + (k x).toNat = l.countP (fun e => k e.2) := by
    intro l hl hg
    induction l with
    | nil => cases hg
    | cons e l ih =>
      rw [tableSorted_cons] at hl
      rw [tableGet_cons] at hg
      unfold tableErase at ih ⊢
      rw [List.filter_cons, List.countP_cons]
      by_cases he : e.1 = i
      · rw [if_pos he] at hg
        cases hg
        have hrest : l.filter (fun d => d.1 ≠ i) = l := by
          rw [List.filter_eq_self]
          intro d hd
          have := hl.1 d hd
          simp
          omega
        rw [if_neg (by simpa using he), hrest]
        cases k e.2 <;> simp
      · rw [if_neg he] at hg
        have := ih hl.2 hg
        rw [if_pos (by simpa using he), List.countP_cons]
        omega
  exact this p.slots hs.1 hx

/-- Records change one by one, each keeping its kind. -/
theorem tally_of_map {g : Nat × Slot → Slot} {k : Slot → Bool} (hq : q.slots = p.slots.map fun e => (e.1, g e))
    (hk : ∀ e ∈ p.slots, k (g e) = k e.2) : q.tally k = p.tally k := by
  unfold Plan.tally
  rw [hq, List.countP_map]
  refine List.countP_congr fun e he => ?_
  dsimp only [Function.comp]
  rw [hk e he]

/-- The counts stand where neither the walls' nor the tallies move. -/
theorem Plan.countsLaw_of_same (hp : p.countsLaw)
    (hw : ∀ w, (q.wall w).slotCount = (p.wall w).slotCount ∧ (q.wall w).laidCount = (p.wall w).laidCount)
    (ht : ∀ w, q.tally (inWall w) = p.tally (inWall w) ∧ q.tally (laidInWall w) = p.tally (laidInWall w)) :
    q.countsLaw := by
  rw [Plan.countsLaw_iff] at hp ⊢
  intro w h
  rw [(hw w).1, (hw w).2, (ht w).1, (ht w).2]
  exact hp w h

/-- A record changes that stays in its wall, laid as it was. -/
theorem Plan.countsLaw_modifySlot (hs : tableWf p.slots) (hp : p.countsLaw) {i : Nat} {f : Slot → Slot}
    (hf : ∀ x, p.slot? i = some x → (f x).wall = x.wall ∧ (f x).state.laid = x.state.laid) :
    (p.modifySlot i f).countsLaw :=
  Plan.countsLaw_of_same hp (fun _ => ⟨rfl, rfl⟩) fun w =>
    ⟨Plan.tally_modifySlot_same hs fun x hx => by simp [inWall, hf x hx],
      Plan.tally_modifySlot_same hs fun x hx => by simp [laidInWall, hf x hx]⟩

/-- A wall's record changes but for its counts. -/
theorem Plan.countsLaw_modifyWall (hp : p.countsLaw) (w : Nat) {f : Wall → Wall}
    (hf : ∀ x, (f x).slotCount = x.slotCount ∧ (f x).laidCount = x.laidCount) : (p.modifyWall w f).countsLaw := by
  refine Plan.countsLaw_of_same hp (fun v => ?_) fun _ => ⟨rfl, rfl⟩
  rw [Plan.wall_modifyWall]
  split
  · exact hf _
  · exact ⟨rfl, rfl⟩

/-- A wall no slot stands in has none to count. -/
theorem Plan.tally_eq_zero {k : Slot → Bool} (h : ∀ e ∈ p.slots, k e.2 = false) : p.tally k = 0 := by
  unfold Plan.tally
  rw [List.countP_eq_zero]
  intro e he
  rw [h e he]
  simp

theorem State.countsLaw_delete (hs : tableWf s.plan.slots) (hp : s.plan.countsLaw) {i : Nat} {x : Slot}
    (hx : s.plan.slot? i = some x) (hst : x.state = .planned) :
    ((s.eraseSlot i).loseSlot x.wall).plan.countsLaw := by
  rw [Plan.countsLaw_iff] at hp ⊢
  intro w hw
  obtain ⟨hslots, hlaid⟩ := hp w hw
  have h1 := Plan.tally_eraseSlot hs hx (inWall w)
  have h2 := Plan.tally_eraseSlot hs hx (laidInWall w)
  have ht : ∀ k, ((s.eraseSlot i).loseSlot x.wall).plan.tally k = (s.plan.eraseSlot i).tally k := fun _ => rfl
  rw [ht, ht, State.loseSlot_plan, State.eraseSlot_plan]
  by_cases hxw : x.wall = w
  · subst hxw
    rw [Plan.wall_modifyWall_self _ hw]
    simp only [inWall, laidInWall, hst, SlotState.laid, decide_true, Bool.toNat_true, and_false, decide_false,
      Bool.toNat_false, Bool.false_eq_true, Plan.wall_eraseSlot] at h1 h2 ⊢
    omega
  · rw [Plan.wall_modifyWall_ne _ hxw]
    simp only [inWall, laidInWall, hxw, decide_false, false_and, Bool.toNat_false, Plan.wall_eraseSlot] at h1 h2 ⊢
    omega

theorem Quiet.countsLaw (h : Quiet c s t) (hs : s.Sound) (hp : s.plan.countsLaw) : t.plan.countsLaw := by
  cases h with
  | targets d l g corrected openLeft hd hf =>
    exact Plan.countsLaw_modifySlot (p := s.plan) hs.table hp fun _ _ => ⟨rfl, rfl⟩
  | wallParams w params audited hp' => exact Plan.countsLaw_modifyWall hp w fun _ => ⟨rfl, rfl⟩
  | wallFlags w audited complete => exact Plan.countsLaw_modifyWall hp w fun _ => ⟨rfl, rfl⟩
  | brickType n g => exact Plan.countsLaw_of_same hp (fun _ => ⟨rfl, rfl⟩) fun _ => ⟨rfl, rfl⟩
  | redraw i x f hx hf hc hr =>
    refine Plan.countsLaw_modifySlot hs.table hp fun y hy => ?_
    rw [hx] at hy
    cases hy
    exact ⟨hf.wall, by rw [hf.state]⟩
  | delete i x hx hst => exact State.countsLaw_delete hs.table hp hx hst
  | _ => exact hp

theorem State.countsLaw_dropCarrier (hs : s.Sound) (hp : s.plan.countsLaw) {d : Carrier} (hd : d ∈ s.line) :
    (s.dropCarrier d).plan.countsLaw := by
  obtain ⟨x, hx, hxc, -⟩ := hs.claimed hd
  have hlaid : ∀ y, s.plan.slot? d.slot = some y → y.state.laid = false := fun y hy => by
    rw [hx] at hy
    cases hy
    rw [hxc]
    rfl
  unfold State.dropCarrier State.returnToFault State.returnToPlanned
  split
  · rw [State.latchPlanFault_plan, State.enter_plan]
    exact Plan.countsLaw_modifySlot (p := s.plan) hs.table hp fun y hy => ⟨rfl, (hlaid y hy).symm⟩
  · exact Plan.countsLaw_modifySlot (p := s.plan) hs.table hp fun y hy => ⟨rfl, (hlaid y hy).symm⟩

theorem State.countsLaw_afterLaying (hs : s.Sound) (hp : s.plan.countsLaw) {d : Carrier} {x : Slot} {st : SlotState}
    (hd : d ∈ s.line) (hx : s.plan.slot? d.slot = some x) (hst : st = .set ∨ st = .suspect) (a : AsLaid)
    (late : Bool) : (s.afterLaying d x st a late).plan.countsLaw := by
  obtain ⟨y, hy, hyc, -⟩ := hs.claimed hd
  rw [hx] at hy
  cases hy
  have hlaid : st.laid = true := by rcases hst with rfl | rfl <;> rfl
  have hclaimed : SlotState.laid .claimed = false := rfl
  rw [Plan.countsLaw_iff] at hp ⊢
  intro w hw
  obtain ⟨hslots, hcount⟩ := hp w hw
  have htable : tableWf (s.plan.modifyWall x.wall fun v => { v with laidCount := v.laidCount + 1 }).slots := hs.table
  have h1 := Plan.tally_modifySlot htable (f := fun y =>
    { y with state := st, tag := none, asLaid := some a, late := late }) hx (inWall w)
  have h2 := Plan.tally_modifySlot htable (f := fun y =>
    { y with state := st, tag := none, asLaid := some a, late := late }) hx (laidInWall w)
  have ht : ∀ k, (s.plan.modifyWall x.wall fun v => { v with laidCount := v.laidCount + 1 }).tally k
    = s.plan.tally k := fun _ => rfl
  unfold State.afterLaying
  dsimp only
  rw [ht] at h1 h2
  rw [Plan.wall_modifySlot]
  by_cases hxw : x.wall = w
  · subst hxw
    rw [Plan.wall_modifyWall_self _ hw]
    simp only [inWall, laidInWall, hyc, hlaid, hclaimed, decide_true, Bool.toNat_true, and_false, and_true,
      decide_false, Bool.toNat_false, Bool.false_eq_true] at h1 h2 ⊢
    omega
  · rw [Plan.wall_modifyWall_ne _ hxw]
    simp only [inWall, laidInWall, hxw, decide_false, false_and, Bool.toNat_false] at h1 h2 ⊢
    omega

/-- An Empty slot takes a record: its wall's counts rise with it. -/
theorem Plan.countsLaw_putSlot (hp : p.countsLaw) {i : Nat} {y : Slot} (hx : p.slot? i = none)
    (hw : y.wall < Config.wallCount) {f : Wall → Wall} (hf : ∀ w, (f w).slotCount = w.slotCount + 1
      ∧ (f w).laidCount = w.laidCount + y.state.laid.toNat) : ((p.putSlot i y).modifyWall y.wall f).countsLaw := by
  rw [Plan.countsLaw_iff] at hp ⊢
  intro w hw'
  obtain ⟨hslots, hlaid⟩ := hp w hw'
  have h1 := Plan.tally_putSlot (y := y) hx (inWall w)
  have h2 := Plan.tally_putSlot (y := y) hx (laidInWall w)
  have ht : ∀ k, ((p.putSlot i y).modifyWall y.wall f).tally k = (p.putSlot i y).tally k := fun _ => rfl
  rw [ht, ht, h1, h2]
  by_cases hxw : y.wall = w
  · subst hxw
    rw [Plan.wall_modifyWall_self _ hw, (hf _).1, (hf _).2, Plan.wall_putSlot, hslots, hlaid]
    simp [inWall, laidInWall]
  · rw [Plan.wall_modifyWall_ne _ hxw, Plan.wall_putSlot, hslots, hlaid]
    simp [inWall, laidInWall, hxw]

theorem State.countsLaw_lift (hs : s.Sound) (hp : s.plan.countsLaw) {i : Nat} {x : Slot}
    (hx : s.plan.slot? i = some x) (hst : x.state = .suspect) :
    ((s.modifySlot i Slot.lifted).loseLaid x.wall).plan.countsLaw := by
  rw [Plan.countsLaw_iff] at hp ⊢
  intro w hw
  obtain ⟨hslots, hcount⟩ := hp w hw
  have h1 := Plan.tally_modifySlot hs.table (f := Slot.lifted) hx (inWall w)
  have h2 := Plan.tally_modifySlot hs.table (f := Slot.lifted) hx (laidInWall w)
  have ht : ∀ k, ((s.modifySlot i Slot.lifted).loseLaid x.wall).plan.tally k
    = (s.plan.modifySlot i Slot.lifted).tally k := fun _ => rfl
  rw [ht, ht, State.loseLaid_plan, State.modifySlot_plan]
  by_cases hxw : x.wall = w
  · subst hxw
    rw [Plan.wall_modifyWall_self _ hw, Plan.wall_modifySlot]
    simp only [inWall, laidInWall, hst, SlotState.laid, Slot.lifted, decide_true, Bool.toNat_true, and_false, and_true,
      decide_false, Bool.toNat_false, Bool.false_eq_true] at h1 h2 ⊢
    omega
  · rw [Plan.wall_modifyWall_ne _ hxw, Plan.wall_modifySlot]
    simp only [inWall, laidInWall, hxw, Slot.lifted, decide_false, false_and, Bool.toNat_false] at h1 h2 ⊢
    omega

theorem State.countsLaw_retireWall (hs : s.Sound) (hp : s.plan.countsLaw) {w : Nat} (ha : s.plan.allSet w = true) :
    (s.retireWall w).plan.countsLaw := by
  refine Plan.countsLaw_of_same hp (fun v => ?_) fun v => ⟨?_, ?_⟩
  · rw [State.wall_retireWall, Plan.wall_modifyWall]
    split <;> exact ⟨rfl, rfl⟩
  · refine tally_of_map (State.slots_retireWall hs.table w) fun e he => ?_
    dsimp only
    split <;> rfl
  · refine tally_of_map (State.slots_retireWall hs.table w) fun e he => ?_
    dsimp only
    split
    · rename_i hew
      have := Plan.set_of_allSet hs.table ha ((Plan.mem_slots_iff hs.table).1 he) hew
      simp [laidInWall, this, SlotState.laid]
    · rfl

theorem State.countsLaw_emptyWall (hp : s.plan.countsLaw) {w : Nat} (hw : w < Config.wallCount) :
    (s.emptyWall w).plan.countsLaw := by
  rw [Plan.countsLaw_iff] at hp ⊢
  intro v hv
  have hmem : ∀ e ∈ (s.emptyWall w).plan.slots, e.2.wall ≠ w := fun e he => by
    simpa using (List.mem_filter.1 he).2
  by_cases hvw : w = v
  · subst hvw
    have hwall : (s.emptyWall w).plan.wall w = Wall.freeWall := Plan.wall_modifyWall_self _ hw _
    rw [hwall, Plan.tally_eq_zero fun e he => by simp [inWall, hmem e he],
      Plan.tally_eq_zero fun e he => by simp [laidInWall, hmem e he]]
    exact ⟨rfl, rfl⟩
  · have hwall : (s.emptyWall w).plan.wall v = s.plan.wall v := Plan.wall_modifyWall_ne _ hvw _
    have htally : ∀ k : Slot → Bool, (∀ x, k x = true → x.wall = v) →
        (s.emptyWall w).plan.tally k = s.plan.tally k := by
      intro k hk
      show (s.plan.slots.filter _).countP _ = _
      rw [List.countP_filter]
      refine List.countP_congr fun e _ => ?_
      rw [Bool.and_eq_true, decide_eq_true_eq]
      exact ⟨And.left, fun h => ⟨h, fun hew => hvw (hew ▸ hk _ h)⟩⟩
    rw [hwall, htally _ fun x hx => by simpa [inWall] using hx, htally _ fun x hx => by
      simp only [laidInWall, decide_eq_true_eq] at hx
      exact hx.1]
    exact hp v hv

theorem State.countsLaw_define (hs : s.Sound) (hp : s.plan.countsLaw) {w : Nat}
    (hw : (s.plan.wall w).state = .free) (params : WallParams) (n : Nat) :
    (s.modifyWall w fun _ => draftWall params n).plan.countsLaw := by
  have hnone : ∀ e ∈ s.plan.slots, e.2.wall ≠ w := by
    intro e he h
    have := (hs.walls e he).2
    rw [h, hw, SlotState.fitsWall_free] at this
    cases this
  have h1 : s.plan.tally (inWall w) = 0 := Plan.tally_eq_zero fun e he => by simp [inWall, hnone e he]
  have h2 : s.plan.tally (laidInWall w) = 0 := Plan.tally_eq_zero fun e he => by simp [laidInWall, hnone e he]
  rw [Plan.countsLaw_iff] at hp ⊢
  intro v hv
  rw [State.modifyWall_plan]
  show _ = s.plan.tally _ ∧ _ = s.plan.tally _
  by_cases hvw : w = v
  · subst hvw
    rw [Plan.wall_modifyWall_self _ hv, h1, h2]
    exact ⟨rfl, rfl⟩
  · rw [Plan.wall_modifyWall_ne _ hvw]
    exact hp v hv

theorem Disturb.countsLaw (h : Disturb c s t) (hs : s.Sound) (hq : s.queueLaw) (hp : s.plan.countsLaw) :
    t.plan.countsLaw := by
  cases h with
  | fault i x r hi hx =>
    refine Plan.countsLaw_modifySlot hs.table hp fun y hy => ⟨rfl, ?_⟩
    rw [State.ready_of_queued hs.table hq hi hy]
    rfl
  | take i x r hcl hi hx hh hc hl =>
    refine Plan.countsLaw_modifySlot hs.table hp fun y hy => ⟨rfl, ?_⟩
    rw [State.ready_of_queued hs.table hq hi hy]
    rfl
  | lay d x st a late hd hx hst ht => exact State.countsLaw_afterLaying hs hp hd hx hst a late
  | drop d x hc hd hx => exact State.countsLaw_dropCarrier hs hp hd
  | clearLine hc =>
    exact (State.foldl_dropCarrier_keeps (P := fun u => u.plan.countsLaw)
      (fun u d hu hup hd => State.countsLaw_dropCarrier hu hup hd) s.line hs rfl hp).2
  | define w params n hw hp' hn => exact State.countsLaw_define hs hp hw params n
  | priority w n hn => exact Plan.countsLaw_modifyWall hp w fun _ => ⟨rfl, rfl⟩
  | retireWall w hw ha => exact State.countsLaw_retireWall hs hp ha
  | emptyWall w hw hst => exact State.countsLaw_emptyWall hp hw
  | load i f hi hx hw hd =>
    exact Plan.countsLaw_putSlot (y := slotOfFields f .planned) hp hx hw fun _ => ⟨rfl, rfl⟩
  | restore i f a hi hx hw hd =>
    rw [State.gainLaid_plan, State.gainSlot_plan, Plan.modifyWall_modifyWall]
    exact Plan.countsLaw_putSlot (y := { slotOfFields f .set with state := .set, asLaid := some a }) hp hx hw
      fun _ => ⟨rfl, rfl⟩
  | redraw i x f hx hf hc =>
    refine Plan.countsLaw_modifySlot hs.table hp fun y hy => ?_
    rw [hx] at hy
    cases hy
    exact ⟨hf.wall, by rw [hf.state]⟩
  | clear i x hx hst =>
    refine Plan.countsLaw_modifySlot hs.table hp fun y hy => ⟨rfl, ?_⟩
    rw [hx] at hy
    cases hy
    rw [hst]
    rfl
  | accept i x hx hst =>
    refine Plan.countsLaw_modifySlot hs.table hp fun y hy => ⟨rfl, ?_⟩
    rw [hx] at hy
    cases hy
    rw [hst]
    rfl
  | lift i x hx hst => exact State.countsLaw_lift hs hp hx hst

/-- A judgement moves no slot out of its wall and lays none. -/
theorem Plan.countsLaw_rejudged (hp : p.countsLaw) (st : Option Nat) (ids : List Nat) :
    (p.rejudged st ids).countsLaw := by
  have hlaid : ∀ x, (p.judged st x).state.laid = x.state.laid := by
    intro x
    rcases p.judged_state_cases st x with h | ⟨h1, h2⟩
    · rw [h]
    · have hn : ∀ st : SlotState, st.waiting = true → st.laid = false := by
        intro st h
        cases st with
        | planned => rfl
        | ready => rfl
        | _ => cases h
      rw [hn _ h1, hn _ h2]
  refine Plan.countsLaw_of_same hp (fun _ => ⟨rfl, rfl⟩) fun w => ⟨tally_of_map rfl fun e _ => ?_,
    tally_of_map rfl fun e _ => ?_⟩
  · split
    · simp [inWall]
    · rfl
  · split
    · simp [laidInWall, hlaid]
    · rfl

theorem Settles.countsLaw (h : Settles s t) (hs : Machine.tableWf s.plan.slots) (hp : s.plan.countsLaw) :
    t.plan.countsLaw := by
  cases h with
  | rejudge ids =>
    rw [State.rejudge_eq hs]
    exact Plan.countsLaw_rejudged hp _ _
  | reselect => exact hp
  | wallState w st hw =>
    unfold State.setWallState State.rejudgeWall
    rw [State.rejudge_eq (s := s.modifyWall w fun x => { x with state := st }) hs]
    have hmoved : (s.modifyWall w fun x => { x with state := st }).plan.countsLaw :=
      Plan.countsLaw_modifyWall hp w fun _ => ⟨rfl, rfl⟩
    exact Plan.countsLaw_rejudged hmoved _ _

/-! ### Every step -/

theorem Way.partsLaw (h : Way c s b t) (hs : s.Sound) (hq : s.queueLaw) (hp : s.plan.partsLaw) :
    t.plan.partsLaw := by
  induction h with
  | start => exact hp
  | quiet hw hd ih => exact hd.partsLaw (hw.consistent hs hq).1 ih
  | disturb hw hd ih => exact hd.partsLaw (hw.consistent hs hq).1 ((hw.consistent hs hq).2 rfl) ih
  | settle hw hd ih => exact hd.partsLaw (hw.consistent hs hq).1.table ih

theorem Way.countsLaw (h : Way c s b t) (hs : s.Sound) (hq : s.queueLaw) (hp : s.plan.countsLaw) :
    t.plan.countsLaw := by
  induction h with
  | start => exact hp
  | quiet hw hd ih => exact hd.countsLaw (hw.consistent hs hq).1 ih
  | disturb hw hd ih => exact hd.countsLaw (hw.consistent hs hq).1 ((hw.consistent hs hq).2 rfl) ih
  | settle hw hd ih => exact hd.countsLaw (hw.consistent hs hq).1.table ih

theorem State.countsLaw_powerOn (code : Option EngineerCode) (estop : Bool) (inputs : List (Port × LinkInput))
    (pending : List Instr) : (State.powerOn code estop inputs pending).plan.countsLaw := by
  intro w hw
  have : (State.powerOn code estop inputs pending).plan.wall w = Wall.freeWall := by
    simp [State.powerOn, Plan.wall, hw]
  rw [this]
  exact ⟨rfl, rfl⟩

end

/-- A law of the plan that every way of deeds keeps from a state that meets the laws, and that power-on reset brings, is
kept by every step from such a state. -/
theorem step_keeps_plan {P : Plan → Prop}
    (deeds : ∀ {c : Instr} {s t : State}, Way c s true t → s.Sound → s.queueLaw → P s.plan → P t.plan)
    (powerOn : ∀ code estop inputs pending, P (State.powerOn code estop inputs pending).plan) {s t : State}
    (h : step s = .next t) (hs : s.Consistent) (hp : P s.plan) : P t.plan := by
  refine (step_keeps (P := fun u => u.Consistent ∧ P u.plan) (fun hin hs => ⟨hs.1.sameInside hin, ?_⟩)
    (fun way hs => ?_) (fun _ _ _ _ => ⟨State.consistent_powerOn _ _ _ _, powerOn _ _ _ _⟩) h ⟨hs, hp⟩).2
  · unfold State.SameInside at hin
    rw [hin]
    exact hs.2
  · obtain ⟨sound, queue⟩ := State.consistent_iff.1 hs.1
    exact ⟨way.keepsConsistent hs.1, deeds way sound queue hs.2⟩

/-- Settles O60: deed by deed. A record keeps the parts its new state calls for, and a deed that moves a slot into or out
of a wall, or lays or lifts one, moves the wall's counts with it. -/
theorem stepKeepsPartsAndCounts : Obligations.StepKeepsPartsAndCounts := by
  unfold Obligations.StepKeepsPartsAndCounts
  intro s t hs h
  exact ⟨step_keeps_plan Way.partsLaw (fun _ _ _ _ _ he => nomatch he) h hs,
    step_keeps_plan Way.countsLaw State.countsLaw_powerOn h hs⟩

end Sys2Proof.Machine

/-! PROOFS of the records' ranges (sections 1.2, 1.4, 6.1, 6.3, 6.5 and 9.1) and of what each item of the state is
changed by (sections 1.4, 3.4, 3.6, 6.1, 8.1, 9.1 and 10.2 to 10.4), read off the ways of deeds. -/

namespace Sys2Proof.Machine

open Sys2Proof

section
variable {c : Instr} {s t : State} {p : Plan} {b : Bool}

/-! ### What the deeds on the tables leave -/

/-- The plan, the line, the queue and the watches are all that may have moved. -/
def State.OnTables (s t : State) : Prop :=
  ∃ plan queue line events, s.events.Leads events ∧ t = { s with
    plan := plan
    dispatcher := { s.dispatcher with queue := queue }
    line := line
    events := events }

theorem State.OnTables.refl (s : State) : s.OnTables s :=
  ⟨s.plan, s.dispatcher.queue, s.line, s.events, Events.Leads.refl _, rfl⟩

theorem State.OnTables.trans {u : State} (h : s.OnTables t) (k : t.OnTables u) : s.OnTables u := by
  obtain ⟨_, _, _, _, he, rfl⟩ := h
  obtain ⟨plan, queue, line, events, he', rfl⟩ := k
  exact ⟨plan, queue, line, events, he.trans he', rfl⟩

theorem State.onTables_of_plan (s : State) (plan : Plan) : s.OnTables { s with plan := plan } :=
  ⟨plan, s.dispatcher.queue, s.line, s.events, Events.Leads.refl _, rfl⟩

theorem State.JudgedInto.onTables (h : s.JudgedInto t) : s.OnTables t := by
  obtain ⟨slots, queue, events, he, rfl⟩ := h
  exact ⟨_, queue, s.line, events, he, rfl⟩

theorem State.onTables_enter (s : State) (i : Nat) (st : SlotState) (f : Slot → Slot) :
    s.OnTables (s.enter i st f) := by
  obtain ⟨e, he, h⟩ := s.enter_frame i st f
  exact ⟨_, s.dispatcher.queue, s.line, e, he, h⟩

theorem State.onTables_latchPlanFault (s : State) : s.OnTables s.latchPlanFault :=
  ⟨s.plan, s.dispatcher.queue, s.line, { s.events with planFault := true }, Events.leads_of_watches rfl, rfl⟩

theorem State.onTables_dropCarrier (s : State) (d : Carrier) : s.OnTables (s.dropCarrier d) := by
  have hr : s.OnTables (s.removeCarrier d.tag) :=
    ⟨s.plan, s.dispatcher.queue, _, s.events, Events.Leads.refl _, rfl⟩
  unfold State.dropCarrier
  split
  · have he := hr.trans (State.onTables_enter (s.removeCarrier d.tag) d.slot .fault fun x =>
      { x.withdrawn with faultReason := some .drift })
    exact he.trans (State.onTables_latchPlanFault _)
  · exact hr.trans (State.onTables_of_plan _ _)

theorem State.onTables_foldl {α : Type} {f : State → α → State} (hf : ∀ (u : State) (a : α), u.OnTables (f u a)) (l : List α)
    (s : State) : s.OnTables (l.foldl f s) := by
  induction l generalizing s with
  | nil => exact .refl s
  | cons a l ih => exact (hf s a).trans (ih (f s a))

theorem Disturb.onTables (h : Disturb c s t) : s.OnTables t := by
  cases h with
  | take => exact ⟨_, _, _, _, Events.Leads.refl _, rfl⟩
  | lay d x st a late hd hx hst ht => exact ⟨_, _, _, _, s.events.leads_present _ _ _ _, rfl⟩
  | drop d x hc hd hx => exact s.onTables_dropCarrier d
  | clearLine hc => exact State.onTables_foldl State.onTables_dropCarrier _ s
  | retireWall w hw ha =>
    exact (s.onTables_of_plan _).trans (State.onTables_foldl (fun u i => u.onTables_enter i .retired id) _ _)
  | _ => exact s.onTables_of_plan _

theorem Settles.onTables (h : Settles s t) : s.OnTables t := by
  cases h with
  | rejudge ids => exact (s.judgedInto_rejudge ids).onTables
  | reselect => exact ⟨_, _, _, _, Events.Leads.refl _, rfl⟩
  | wallState w st hw => exact (s.onTables_of_plan _).trans (State.judgedInto_rejudge _ _).onTables

/-- What every quiet deed keeps, and what reads nothing that the other deeds move, every way keeps. -/
theorem Way.keeps {P : State → Prop} (quiet : ∀ {u v : State}, Quiet c u v → P u → P v)
    (tables : ∀ {u v : State}, u.OnTables v → P u → P v) (h : Way c s b t) (hs : P s) : P t := by
  induction h with
  | start => exact hs
  | quiet _ hd ih => exact quiet hd ih
  | disturb _ hd ih => exact tables hd.onTables ih
  | settle _ hd ih => exact tables hd.onTables ih

/-! ### Ranges of the options, the weather, the clock and the watches -/

/-- A value of an option's range that keeps its pair keeps the options lawful (R123, R124). -/
theorem Options.lawful_write {o : Options} (ho : o.lawful) {code : Nat} {lo hi v : Int}
    (hr : optionRange code = some (lo, hi)) (hlo : lo ≤ v) (hhi : v ≤ hi)
    (hp : (o.write code v).pairHolds code = true) : (o.write code v).lawful := by
  unfold optionRange at hr
  unfold Options.lawful at ho ⊢
  split at hr <;> cases hr <;> simp only [Options.write, Options.pairHolds, decide_eq_true_eq] at hp ⊢ <;> omega

theorem Quiet.options (h : Quiet c s t) (ho : s.options.lawful) : t.options.lawful := by
  cases h with
  | option code lo hi v hr hlo hhi hp => exact Options.lawful_write ho hr hlo hhi hp
  | _ => exact ho

theorem Conditions.lawful_turnStale {k : Conditions} (h : k.lawful) : k.turnStale.lawful := by
  obtain ⟨hlo, hhi, hwind, -⟩ := h
  exact ⟨hlo, hhi, hwind, fun _ => ⟨rfl, rfl, rfl⟩⟩

theorem Conditions.lawful_report (k : Conditions) (o : Options) (clock : Option Nat) (temperature : Int) (wind : Nat) :
    (k.report o clock temperature wind).lawful := by
  obtain ⟨hlo, hhi⟩ := clampInt_between (lo := -40) (hi := 85) (by decide) temperature
  unfold Conditions.report
  dsimp only
  split
  · exact ⟨hlo, hhi, Nat.min_le_right _ _, (nomatch ·)⟩
  · exact ⟨hlo, hhi, Nat.min_le_right _ _, fun _ => ⟨rfl, rfl, rfl⟩⟩

/-- A report leaves the record fresh only while the clock counts (R112, R113). -/
theorem Conditions.report_stale (k : Conditions) (o : Options) {clock : Option Nat} (temperature : Int) (wind : Nat)
    (h : clock = none ∨ clock = some 4294967295) : (k.report o clock temperature wind).stale = true := by
  have : clockCounts clock = false := by rcases h with rfl | rfl <;> decide
  unfold Conditions.report
  dsimp only
  rw [this]
  rfl

theorem Quiet.weatherLaw (h : Quiet c s t) (hs : s.weatherLaw) : t.weatherLaw := by
  obtain ⟨hk, hstale⟩ := hs
  cases h with
  | clockSet v hc hl =>
    obtain ⟨hlo, hhi, hwind, -⟩ := hk
    exact ⟨⟨hlo, hhi, hwind, fun _ => ⟨rfl, rfl, rfl⟩⟩, fun _ => rfl⟩
  | tick now hc ht hlt hst =>
    refine ⟨hk, fun h => hst ?_⟩
    rcases h with h | h
    · cases h
    · exact Option.some.inj h
  | turnStale => exact ⟨Conditions.lawful_turnStale hk, fun _ => rfl⟩
  | report temperature wind =>
    exact ⟨s.conditions.lawful_report _ _ _ _, fun h => s.conditions.report_stale _ _ _ h⟩
  | _ => exact ⟨hk, hstale⟩

theorem Quiet.clockRange (h : Quiet c s t) (hs : s.clockRange) : t.clockRange := by
  cases h with
  | clockSet v hc hl =>
    intro n hn
    cases hn
    exact Nat.le_of_lt_succ v.isLt
  | tick now hc ht hlt hst =>
    intro n hn
    cases hn
    exact hlt
  | _ => exact hs

theorem Watch.Leads.lawful {w v : Watch} (h : w.Leads v) (hw : w.lawful = true) : v.lawful = true := by
  unfold Watch.lawful at hw ⊢
  simp only [Bool.and_eq_true, decide_eq_true_eq] at hw ⊢
  rw [h.entered]
  exact ⟨⟨h.range hw.1.1, hw.1.2⟩, hw.2⟩

theorem Events.lawful_iff {e : Events} :
    e.lawful ↔ ∀ (k : Nat) (w : Watch), e.watches[k]? = some w → w.lawful = true := by
  constructor
  · intro h k w hw
    have hk : k < Config.watchCount := by
      by_contra hk
      rw [Vector.getElem?_eq_none (by omega)] at hw
      cases hw
    have := h k hk
    rw [hw] at this
    exact this
  · intro h k hk
    rw [Vector.getElem?_eq_getElem hk]
    exact h k _ (Vector.getElem?_eq_getElem hk)

theorem Events.Leads.lawful {e d : Events} (h : e.Leads d) (he : e.lawful) : d.lawful := by
  rw [Events.lawful_iff] at he ⊢
  intro k v hv
  have hk : k < Config.watchCount := by
    by_contra hk
    rw [Vector.getElem?_eq_none (by omega)] at hv
    cases hv
  exact (h k _ v (Vector.getElem?_eq_getElem hk) hv).lawful (he k _ (Vector.getElem?_eq_getElem hk))

/-- A state that a watch can name is neither Empty nor Planned (R157). -/
theorem enteredStateOf_lawful {b : Byte} {st : SlotState} (h : enteredStateOf b = some st) :
    st ≠ .empty ∧ st ≠ .planned := by
  unfold enteredStateOf at h
  split at h
  · cases h
  · cases h
  · rename_i h1 h2
    exact ⟨fun hst => h1 (hst ▸ h), fun hst => h2 (hst ▸ h)⟩

theorem watchRecordOf_lawful {f : WatchFields} {w : Watch} (h : watchRecordOf f = some w) : w.lawful = true := by
  unfold watchRecordOf at h
  split at h
  · rename_i st mode hst _
    cases h
    obtain ⟨h1, h2⟩ := enteredStateOf_lawful hst
    simp [Watch.lawful, h1, h2]
  · cases h

theorem Quiet.eventsLawful (h : Quiet c s t) (hs : s.events.lawful) : t.events.lawful := by
  cases h with
  | events e he => exact he.lawful hs
  | watchSet f w hc hw =>
    rw [Events.lawful_iff] at hs ⊢
    intro k v hv
    dsimp only at hv
    rw [Vector.getElem?_setIfInBounds] at hv
    split at hv
    · split at hv
      · cases hv
        exact watchRecordOf_lawful hw
      · cases hv
    · exact hs k v hv
  | _ => exact hs

/-! ### Ranges of the walls' parameters and priorities -/

theorem Plan.paramsLaw_modifyWall (hp : p.paramsLaw) (w : Nat) {f : Wall → Wall}
    (hn : (p.wall w).priority ≤ 7 → (f (p.wall w)).priority ≤ 7)
    (hf : ((p.wall w).state ≠ .free → (p.wall w).params.inRange = true) →
      (f (p.wall w)).state ≠ .free → (f (p.wall w)).params.inRange = true) : (p.modifyWall w f).paramsLaw := by
  intro v hv
  rw [Plan.wall_modifyWall]
  split
  · rename_i h
    rw [← h.1]
    have := hp v hv
    rw [← h.1] at this
    exact ⟨hn this.1, hf this.2⟩
  · exact hp v hv

/-- The walls stand. -/
theorem Plan.paramsLaw_of_walls {q : Plan} (hp : p.paramsLaw) (h : q.walls = p.walls) : q.paramsLaw := by
  intro w hw
  have : q.wall w = p.wall w := by simp [Plan.wall, h]
  rw [this]
  exact hp w hw

theorem Quiet.paramsLaw (h : Quiet c s t) (hp : s.plan.paramsLaw) : t.plan.paramsLaw := by
  cases h with
  | wallParams w params audited hr => exact Plan.paramsLaw_modifyWall hp w id fun _ _ => hr
  | wallFlags w audited complete => exact Plan.paramsLaw_modifyWall hp w id id
  | delete i x hx hst => exact Plan.paramsLaw_modifyWall (p := s.plan.eraseSlot i) hp x.wall id id
  | _ => exact hp

theorem State.walls_dropCarrier (s : State) (d : Carrier) : (s.dropCarrier d).plan.walls = s.plan.walls := by
  unfold State.dropCarrier State.returnToFault State.returnToPlanned
  split
  · rw [State.latchPlanFault_plan, State.enter_plan]
    rfl
  · rfl

theorem State.walls_foldl_dropCarrier (l : List Carrier) (s : State) :
    (l.foldl State.dropCarrier s).plan.walls = s.plan.walls := by
  induction l generalizing s with
  | nil => rfl
  | cons d l ih =>
    rw [List.foldl_cons, ih]
    exact s.walls_dropCarrier d

theorem Disturb.paramsLaw (h : Disturb c s t) (hp : s.plan.paramsLaw) : t.plan.paramsLaw := by
  cases h with
  | lay d x st a late hd hx hst ht =>
    exact Plan.paramsLaw_modifyWall hp x.wall (f := fun w => { w with laidCount := w.laidCount + 1 }) id id
  | drop d x hc hd hx => exact Plan.paramsLaw_of_walls hp (s.walls_dropCarrier d)
  | clearLine hc => exact Plan.paramsLaw_of_walls hp (State.walls_foldl_dropCarrier _ s)
  | define w params n hw hr hn => exact Plan.paramsLaw_modifyWall hp w (fun _ => hn) fun _ _ => hr
  | priority w n hn => exact Plan.paramsLaw_modifyWall hp w (fun _ => hn) id
  | retireWall w hw ha =>
    have hclosed : (s.modifyWall w fun x => { x with state := .closed }).plan.paramsLaw := by
      refine Plan.paramsLaw_modifyWall hp w id fun h _ => h fun hfree => ?_
      rw [hfree] at hw
      cases hw
    exact Plan.paramsLaw_of_walls hclosed (State.walls_foldl_retire _ _)
  | emptyWall w hw hst =>
    exact Plan.paramsLaw_modifyWall (p := { s.plan with slots := s.plan.slots.filter fun e => e.2.wall ≠ w }) hp w
      (f := fun _ => Wall.freeWall) (fun _ => Nat.zero_le _) fun _ h => absurd rfl h
  | load i f hi hx hw hd => exact Plan.paramsLaw_modifyWall (p := s.plan.putSlot i _) hp _ id id
  | restore i f a hi hx hw hd =>
    have hgain : ((s.putSlot i { slotOfFields f .set with state := .set, asLaid := some a }).gainSlot
        f.wall.toNat).plan.paramsLaw := Plan.paramsLaw_modifyWall (p := s.plan.putSlot i _) hp _ id id
    exact Plan.paramsLaw_modifyWall hgain _ id id
  | lift i x hx hst => exact Plan.paramsLaw_modifyWall (p := s.plan.modifySlot i _) hp _ id id
  | _ => exact hp

theorem Settles.paramsLaw (h : Settles s t) (hp : s.plan.paramsLaw) : t.plan.paramsLaw := by
  cases h with
  | rejudge ids => exact Plan.paramsLaw_of_walls hp (s.judgedInto_rejudge ids).walls
  | reselect => exact hp
  | wallState w st hw =>
    have hmoved : (s.modifyWall w fun x => { x with state := st }).plan.paramsLaw := by
      refine Plan.paramsLaw_modifyWall hp w id fun h _ => h fun hfree => ?_
      rw [hfree] at hw
      cases st <;> cases hw
    exact Plan.paramsLaw_of_walls hmoved (State.judgedInto_rejudge _ _).walls

theorem Way.paramsLaw (h : Way c s b t) (hp : s.plan.paramsLaw) : t.plan.paramsLaw := by
  induction h with
  | start => exact hp
  | quiet _ hd ih => exact hd.paramsLaw ih
  | disturb _ hd ih => exact hd.paramsLaw ih
  | settle _ hd ih => exact hd.paramsLaw ih

/-! ### Ports -/

/-- No deed moves a port. -/
theorem Way.port (h : Way c s b t) (p : Port) : t.port p = s.port p := by
  refine Way.keeps (P := fun u => u.port p = s.port p) (fun hd hu => ?_) (fun hd hu => ?_) h rfl
  · rw [← hu]
    cases hd <;> cases p <;> rfl
  · obtain ⟨_, _, _, _, _, rfl⟩ := hd
    rw [← hu]
    cases p <;> rfl

theorem State.port_setPort (s : State) (p : Port) (x : PortState) (q : Port) :
    (s.setPort p x).port q = if q = p then x else s.port q := by
  cases p <;> cases q <;> rfl

/-- A port that keeps its cursor keeps every cursor. -/
theorem State.cursor_setPort {p : Port} {x : PortState} (hx : x.cursor = (s.port p).cursor) (q : Port) :
    ((s.setPort p x).port q).cursor = (s.port q).cursor := by
  rw [State.port_setPort]
  split
  · rename_i h
    rw [h, hx]
  · rfl

theorem State.cursor_setReceiver (s : State) (p : Port) (r : Receiver) (q : Port) :
    ((s.setReceiver p r).port q).cursor = (s.port q).cursor :=
  State.cursor_setPort (x := { s.port p with receiver := r }) rfl q

/-- An answer moves no cursor, but for a sweep's step and power-on reset (R15). -/
theorem Answered.cursor (h : Answered c s t) (q : Port) : (t.port q).cursor = (s.port q).cursor
    ∨ (c = .sweepStep ∧ ∃ i < Config.slotCount, t = s.setCursor .P i) ∨ c = .powerOnReset := by
  cases h with
  | swept i hc hi => exact .inr (.inl ⟨hc, i, hi, rfl⟩)
  | powerOn hc => exact .inr (.inr hc)
  | silent => exact .inl rfl
  | reply p code st r => exact .inl (State.cursor_setPort (PortState.send_cursor _ _) q)
  | released => exact .inl (State.cursor_setPort (PortState.release_cursor _) q)
  | discarded p =>
    exact .inl ((State.cursor_setPort (PortState.release_cursor _) q).trans (s.cursor_setReceiver p _ q))
  | due r => exact .inl (State.cursor_setPort (p := .P) (PortState.ending_cursor _ _) q)
  | hunting hc => exact .inl (s.cursor_setReceiver .M _ q)
  | waited r hr => cases q <;> exact .inl rfl

/-- Every cursor after a command is where it was, where the command's address resolves, or where a sweep's step or
power-on reset puts it (R15). -/
theorem exec_cursor_lt (h : exec c s = .next t) (hs : tableWf s.plan.slots)
    (hc : ∀ q, (s.port q).cursor < Config.slotCount) (q : Port) : (t.port q).cursor < Config.slotCount := by
  obtain ⟨u, ha, v, hw, hans⟩ := exec_does h
  have hu : ∀ q, (u.port q).cursor < Config.slotCount := by
    intro q
    cases ha with
    | plain => exact hc q
    | refused => exact hc q
    | resolved _ _ hr =>
      unfold State.setCursor
      rw [State.port_setPort]
      split
      · exact State.index_lt_of_resolve hs hr
      · exact hc q
  have hv : (v.port q).cursor < Config.slotCount := by
    rw [hw.port]
    exact hu q
  rcases hans.cursor q with he | ⟨-, i, hi, rfl⟩ | rfl
  · rw [he]
    exact hv
  · unfold State.setCursor
    rw [State.port_setPort]
    split
    · exact hi
    · exact hv
  · cases h
    cases q <;> exact Nat.zero_lt_succ _

theorem State.cursorLaw_iff : s.cursorLaw ↔ ∀ q, (s.port q).cursor < Config.slotCount :=
  ⟨fun h q => by cases q; exacts [h.1, h.2], fun h => ⟨h .P, h .M⟩⟩

theorem State.cursor_receiveInput (s : State) (q : Port) : (s.receiveInput.port q).cursor = (s.port q).cursor := by
  unfold State.receiveInput
  split
  · rfl
  · rename_i p x rest _
    refine (State.cursor_setReceiver _ p _ q).trans ?_
    cases q <;> rfl

theorem step_cursorLaw (h : step s = .next t) (hs : tableWf s.plan.slots) (hc : s.cursorLaw) : t.cursorLaw := by
  rw [State.cursorLaw_iff] at hc ⊢
  rcases step_cases h with ⟨c, u, hu, hP, hM, hexec⟩ | rfl
  · refine fun q => exec_cursor_lt hexec ?_ (fun q => ?_) q
    · unfold State.SameInside at hu
      rw [hu]
      exact hs
    · have : u.port q = s.port q := by cases q; exacts [hP, hM]
      rw [this]
      exact hc q
  · exact fun q => by
      rw [State.cursor_receiveInput]
      exact hc q

end

/-- A law of the options, the weather, the clock or the watches that quiet deeds keep is kept by every step. -/
theorem step_keeps_record {P : State → Prop}
    (record : ∀ {s t : State}, t.options = s.options → t.conditions = s.conditions → t.clock = s.clock →
      s.events.Leads t.events → P s → P t)
    (quiet : ∀ {c : Instr} {s t : State}, Quiet c s t → P s → P t)
    (powerOn : ∀ code estop inputs pending, P (State.powerOn code estop inputs pending)) {s t : State}
    (h : step s = .next t) (hs : P s) : P t := by
  refine step_keeps (fun {u v} hin hs => ?_) (fun way => way.keeps quiet fun {u v} hon hs => ?_) powerOn h hs
  · unfold State.SameInside at hin
    rw [hin]
    exact record (s := u) rfl rfl rfl (Events.Leads.refl _) hs
  · obtain ⟨_, _, _, _, he, rfl⟩ := hon
    exact record (s := u) rfl rfl rfl he hs

theorem step_paramsLaw {s t : State} (h : step s = .next t) (hs : s.plan.paramsLaw) : t.plan.paramsLaw := by
  refine step_keeps (P := fun u => u.plan.paramsLaw) (fun hin hs => ?_) Way.paramsLaw (fun _ _ _ _ => ?_) h hs
  · unfold State.SameInside at hin
    rw [hin]
    exact hs
  · exact (by decide : State.reset.plan.paramsLaw)

/-- Settles O42: each record is changed by a few quiet deeds, which keep its range; the cursors are moved by addresses that
resolve, and by a sweep's step inside the table. -/
theorem stepKeepsTheRecordsInRange : Obligations.StepKeepsTheRecordsInRange := by
  unfold Obligations.StepKeepsTheRecordsInRange
  intro s t h
  refine ⟨?_, ?_, ?_, ?_, step_paramsLaw h, step_cursorLaw h⟩
  · refine step_keeps_record (P := fun u => u.options.lawful) (fun ho _ _ _ hs => ?_) Quiet.options
      (fun _ _ _ _ => (by decide : Options.defaults.lawful)) h
    rw [ho]
    exact hs
  · refine step_keeps_record (P := State.weatherLaw) (fun _ hk hc _ hs => ?_) Quiet.weatherLaw
      (fun _ _ _ _ => ⟨(by decide : Conditions.reset.lawful), fun _ => rfl⟩) h
    unfold State.weatherLaw
    rw [hk, hc]
    exact hs
  · exact step_keeps_record (P := fun u => u.events.lawful) (fun _ _ _ he hs => he.lawful hs) Quiet.eventsLawful
      (fun _ _ _ _ => (by decide : Events.reset.lawful)) h
  · refine step_keeps_record (P := State.clockRange) (fun _ _ hc _ hs => ?_) Quiet.clockRange
      (fun _ _ _ _ _ h => nomatch h) h
    unfold State.clockRange
    rw [hc]
    exact hs

end Sys2Proof.Machine

/-! PROOFS of what each command can do to the ports and to single records (sections 1.4, 3.4, 3.6, 6.1, 8.1 to 8.6, 9.1
and 10.2 to 10.4), read off the ways of deeds. -/

namespace Sys2Proof.Machine

open Sys2Proof

section
variable {c : Instr} {s t : State} {p : Port} {code : Byte} {k : CommandClass} {a : SlotAddress}

/-! ### Addressed commands and cursors (R13 to R15) -/

/-- Every command that carries an address resolves it once its port takes it (R14). -/
theorem exec_addressed (h : addressedRow c = some (p, code, k, a)) :
    ∃ take, ∀ s, exec c s = .next (s.onPort p code k fun s => s.withAddress p code a take) := by
  cases c with
  | sweepRetype f =>
    cases h
    exact ⟨_, fun s => congrArg (fun take => Host.Outcome.next (s.onPlanPort 0x10 .planShaping take))
      (funext fun s => s.startSweep_retype_eq f)⟩
  | _ => cases h <;> exact ⟨_, fun _ => rfl⟩

/-- A cursor is moved by the command's address alone, but for a sweep's step and power-on reset (R15). -/
theorem exec_cursor (h : exec c s = .next t) (hc : c ≠ .sweepStep) (hr : c ≠ .powerOnReset) :
    ∃ u, Addressed c s u ∧ ∀ q, (t.port q).cursor = (u.port q).cursor := by
  obtain ⟨u, ha, v, hw, hans⟩ := exec_does h
  refine ⟨u, ha, fun q => ?_⟩
  rcases hans.cursor q with he | ⟨rfl, _⟩ | rfl
  · rw [he, hw.port]
  · exact absurd rfl hc
  · exact absurd rfl hr

theorem State.cursor_setCursor (s : State) (p : Port) (i : Nat) (q : Port) :
    ((s.setCursor p i).port q).cursor = if q = p then i else (s.port q).cursor := by
  unfold State.setCursor
  rw [State.port_setPort]
  split <;> rfl

/-- An address moves no cursor of the other port. -/
theorem Addressed.cursor_other {u : State} (h : Addressed c s u) (hrow : addressedRow c = some (p, code, k, a))
    {q : Port} (hq : q ≠ p) : (u.port q).cursor = (s.port q).cursor := by
  cases h with
  | plain => rfl
  | refused => rfl
  | resolved hrow' ht hr =>
    rw [hrow] at hrow'
    cases hrow'
    rw [State.cursor_setCursor, if_neg hq]

/-- An address that resolves moves its port's cursor there. -/
theorem Addressed.cursor_self {u : State} (h : Addressed c s u) (hrow : addressedRow c = some (p, code, k, a))
    (ht : s.takes p k) {i : Nat} (hi : s.resolve p a = some i) : (u.port p).cursor = i := by
  cases h with
  | plain hrow' => rw [hrow] at hrow'; cases hrow'
  | refused hrow' hr =>
    rw [hrow] at hrow'
    cases hrow'
    rw [hr ht] at hi
    cases hi
  | resolved hrow' _ hr =>
    rw [hrow] at hrow'
    cases hrow'
    rw [hr] at hi
    cases hi
    rw [State.cursor_setCursor, if_pos rfl]

theorem Addressed.eq_of_plain {u : State} (h : Addressed c s u) (hrow : addressedRow c = none) : u = s := by
  cases h with
  | plain => rfl
  | refused => rfl
  | resolved hrow' => rw [hrow] at hrow'; cases hrow'

theorem ne_of_addressed (h : addressedRow c = some (p, code, k, a)) : c ≠ .sweepStep ∧ c ≠ .powerOnReset := by
  constructor
  · rintro rfl
    cases h
  · rintro rfl
    cases h

end

/-- Settles O6: an addressed command is its address and then deeds and an answer that move no cursor. -/
theorem addressedCommandsMoveTheCursor : Obligations.AddressedCommandsMoveTheCursor := by
  unfold Obligations.AddressedCommandsMoveTheCursor
  refine ⟨fun c p code k a s hrow ht => ?_, fun c p code k a s t hrow h q hq => ?_, fun c s t hrow hc hr h q => ?_⟩
  · obtain ⟨take, hexec⟩ := exec_addressed hrow
    refine ⟨fun hr => ?_, fun i hi => ⟨_, hexec s, ?_⟩⟩
    · rw [hexec, State.onPort_of_takes ht, State.withAddress_none hr]
    · obtain ⟨hc, hp⟩ := ne_of_addressed hrow
      obtain ⟨u, ha, hu⟩ := exec_cursor (hexec s) hc hp
      rw [hu, ha.cursor_self hrow ht hi]
  · obtain ⟨hc, hp⟩ := ne_of_addressed hrow
    obtain ⟨u, ha, hu⟩ := exec_cursor h hc hp
    rw [hu, ha.cursor_other hrow hq]
  · obtain ⟨u, ha, hu⟩ := exec_cursor h hc hr
    rw [hu, ha.eq_of_plain hrow]

/-! ### Admission on port P (R150, R172) -/

/-- Every port P command of the table of R150 is taken through port P's admission. -/
theorem exec_planPort {c : Instr} {code : Byte} {k : CommandClass} (h : planPortRow c = some (code, k))
    (hwf : c.wellFormed = true) : ∃ take, ∀ s, exec c s = .next (s.onPlanPort code k take) := by
  cases c with
  | slotLoad rs =>
    cases h
    have hrs : ¬ (rs.length = 0 ∨ 8 < rs.length) := by
      have := of_decide_eq_true hwf
      omega
    exact ⟨_, fun s => congrArg Host.Outcome.next (if_neg hrs)⟩
  | slotRead p _ | wallRead p _ | typeRead p _ | queueRead p _ | lineRead p | readTime p | conditionsRead p
  | optionRead p | status p | eventFetch p | eventMask p _ =>
    cases p with
    | P => cases h; exact ⟨_, fun _ => rfl⟩
    | M => cases h
  | _ => cases h <;> exact ⟨_, fun _ => rfl⟩

/-- Settles O4: a port P command comes to its own tests only through its port's admission. -/
theorem planPortAdmission : Obligations.PlanPortAdmission := by
  unfold Obligations.PlanPortAdmission
  intro c code k s hrow hwf
  obtain ⟨take, hexec⟩ := exec_planPort hrow hwf
  refine ⟨fun running => ?_, fun idle refused => ?_⟩
  · rw [hexec, State.onPlanPort_of_running running]
  · rw [hexec, State.onPlanPort_of_not_takes idle refused]

section
variable {c : Instr} {s t : State}

/-! ### One record and the commands that change it -/

/-- What nothing in the ports decides and a command's deeds keep, the command keeps, but for power-on reset. -/
theorem exec_keeps {P : State → Prop} (inside : ∀ {u v : State}, u.SameInside v → P u → P v)
    (deeds : ∀ {u v : State}, Way c u true v → P u → P v) (hr : c ≠ .powerOnReset) (h : exec c s = .next t)
    (hs : P s) : P t := by
  obtain ⟨u, ha, v, hw, hans⟩ := exec_does h
  have hv : P v := deeds hw (inside ha.sameInside hs)
  rcases hans.sameInside_or with hin | ⟨rfl, -⟩
  · exact inside hin hv
  · exact absurd rfl hr

/-- What a command may make of the Authority Unit (R149, R151 to R155). -/
inductive Authority.Leads (c : Instr) (a : Authority) : Authority → Prop
  | stands : Leads c a a
  | powerOn (hc : c = .powerOnReset) : Leads c a (Authority.powerOn a.code)
  | unlocked (code : EngineerCode) (hc : c = .unlock code) : Leads c a { a with level := .engineer }
  | mismatched (code : EngineerCode) (hc : c = .unlock code) (left : a.attempts ≠ 0) (other : a.code ≠ some code) :
      Leads c a { a with attempts := a.attempts - 1 }
  | locked (hc : c = .lock) (stored : a.code.isSome = true) : Leads c a { a with level := .operator }
  | coded (b : Byte) (code : EngineerCode) (hc : c = .setCode b code) (level : a.level ≠ .operator)
      (v : Option EngineerCode) : Leads c a { a with code := v }
  | frozen (hc : c = .freeze) : Leads c a { a with frozen := true }
  | epl (b : Byte) (l : Level) (hc : c = .setEpl b) : Leads c a { a with epl := l }

theorem Authority.leads_tryUnlock (a : Authority) (code : EngineerCode) :
    a.Leads (.unlock code) (a.tryUnlock code).2 := by
  unfold Authority.tryUnlock
  split
  · exact .stands
  · split
    · exact .stands
    · split
      · exact .stands
      · rename_i left
        split
        · exact .unlocked code rfl
        · rename_i other
          exact .mismatched code rfl left other

theorem Authority.leads_lock (a : Authority) : a.Leads .lock a.lock := by
  unfold Authority.lock
  split
  · rename_i stored
    exact .locked rfl stored
  · exact .stands

/-- A port P command that is refused leaves the Authority Unit. -/
theorem leads_onPlanPort {code : Byte} {k : CommandClass} {take : State → State}
    (taken : s.authority.Leads c (take s).authority) : s.authority.Leads c (s.onPlanPort code k take).authority := by
  rcases s.onPlanPort_cases code k take with ⟨-, he⟩ | ⟨st, he⟩
  · rw [he]
    exact taken
  · rw [he, State.refuse_authority]
    exact .stands

theorem leads_setCode (b : Byte) (code : EngineerCode) (h : exec (.setCode b code) s = .next t) :
    s.authority.Leads (.setCode b code) t.authority := by
  cases h
  refine leads_onPlanPort ?_
  split
  · rw [State.refuse_authority]
    exact .stands
  · split
    · rw [State.refuse_authority]
      exact .stands
    · rename_i level
      split
      · rw [State.refuse_authority]
        exact .stands
      · rw [State.refuse_authority]
        exact .coded b code rfl level _

theorem leads_setEpl (b : Byte) (h : exec (.setEpl b) s = .next t) :
    s.authority.Leads (.setEpl b) t.authority := by
  cases h
  refine leads_onPlanPort ?_
  split
  · rw [State.refuse_authority]
    exact .stands
  · rw [State.refuse_authority]
    exact .epl b _ rfl

/-- Five commands and power-on reset change the Authority Unit, each in its own way. -/
theorem exec_authority (h : exec c s = .next t) : s.authority.Leads c t.authority := by
  by_cases hr : c = .powerOnReset
  · subst hr
    cases h
    exact .powerOn rfl
  by_cases hc : SetsAuthority c
  · rcases hc with ⟨code, rfl⟩ | rfl | ⟨b, code, rfl⟩ | rfl | ⟨b, rfl⟩
    · cases h
      refine leads_onPlanPort ?_
      dsimp only
      rw [State.reply_authority]
      exact s.authority.leads_tryUnlock code
    · cases h
      refine leads_onPlanPort ?_
      dsimp only
      rw [State.reply_authority]
      exact s.authority.leads_lock
    · exact leads_setCode b code h
    · cases h
      refine leads_onPlanPort ?_
      rw [State.refuse_authority]
      exact .frozen rfl
    · exact leads_setEpl b h
  · have : t.authority = s.authority := by
      refine exec_keeps (P := fun u => u.authority = s.authority) (fun hin hu => ?_) (fun way => ?_) hr h rfl
      · unfold State.SameInside at hin
        rw [hin]
        exact hu
      · refine way.keeps (P := fun u => u.authority = s.authority) (fun hd hu => ?_) (fun hd hu => ?_)
        · cases hd with
          | authority a hset => exact absurd hset hc
          | _ => exact hu
        · obtain ⟨_, _, _, _, _, rfl⟩ := hd
          exact hu
    rw [this]
    exact .stands

end

/-- Settles O19: what each of the six ways to change the unit writes. -/
theorem authorityLaw : Obligations.AuthorityLaw := by
  unfold Obligations.AuthorityLaw
  intro c s t h
  generalize hb : t.authority = b
  have hl : s.authority.Leads c b := hb ▸ exec_authority h
  cases hl with
  | stands => exact ⟨id, (absurd rfl ·), fun _ => ⟨.inl rfl, id, (absurd rfl ·), (absurd rfl ·), (absurd rfl ·)⟩⟩
  | powerOn hc =>
    refine ⟨fun _ => ⟨le_refl _, fun hlev => ?_⟩, (absurd rfl ·), (absurd hc ·)⟩
    unfold Authority.powerOn at hlev ⊢
    by_contra hn
    simp [hn] at hlev
  | unlocked code hc =>
    exact ⟨fun hs => ⟨hs.1, (nomatch ·)⟩, (absurd rfl ·), fun _ =>
      ⟨.inl rfl, id, (absurd rfl ·), fun _ => .inr ⟨code, hc⟩, (absurd rfl ·)⟩⟩
  | mismatched code hc left other =>
    exact ⟨fun hs => ⟨(Nat.sub_le _ _).trans hs.1, hs.2⟩, (absurd rfl ·), fun _ =>
      ⟨.inr ⟨Nat.succ_pred left, code, hc, other⟩, id, (absurd rfl ·), (absurd rfl ·), (absurd rfl ·)⟩⟩
  | locked hc stored =>
    exact ⟨fun hs => ⟨hs.1, fun _ => stored⟩, (absurd rfl ·), fun _ =>
      ⟨.inl rfl, id, (absurd rfl ·), fun _ => .inl hc, (absurd rfl ·)⟩⟩
  | coded b code hc level v =>
    exact ⟨fun hs => ⟨hs.1, (absurd · level)⟩, fun _ => ⟨b, code, hc⟩, fun _ =>
      ⟨.inl rfl, id, (absurd rfl ·), (absurd rfl ·), (absurd rfl ·)⟩⟩
  | frozen hc =>
    exact ⟨id, (absurd rfl ·), fun _ =>
      ⟨.inl rfl, fun _ => rfl, fun _ => hc, (absurd rfl ·), (absurd rfl ·)⟩⟩
  | epl b l hc =>
    exact ⟨id, (absurd rfl ·), fun _ =>
      ⟨.inl rfl, id, (absurd rfl ·), (absurd rfl ·), fun _ => ⟨b, hc⟩⟩⟩

end Sys2Proof.Machine

/-! PROOFS of what each item is changed by: the clock, the watches, HELD and STOPX (sections 3.4, 3.6, 6.1 and 9.1 to
9.4). -/

namespace Sys2Proof.Machine

open Sys2Proof

section
variable {c : Instr} {s t : State} {b : Bool}

/-- Settles O1: each case of a step is one branch of its definition. -/
theorem stepTakesTheFrontCommand : Obligations.StepTakesTheFrontCommand := by
  unfold Obligations.StepTakesTheFrontCommand
  refine ⟨fun c s => rfl, fun s p x rest hp hi => ?_, fun s hp hi => ?_⟩
  · simp only [step, hp, State.receiveInput, hi, List.nil_append]
  · simp only [step, hp, State.receiveInput, hi]

/-! ### The clock (R106, R107, R114) -/

theorem exec_clockTick_below {n : Nat} (hc : s.clock = some n) (hn : n < 4294967294) :
    exec .clockTick s = .next { s with clock := some (n + 1) } := by
  have h1 : ¬ Config.maxTime ≤ n := Nat.not_le.2 (Nat.lt_succ_of_lt hn)
  have h2 : ¬ n + 1 = Config.maxTime := Nat.ne_of_lt (Nat.succ_lt_succ hn)
  simp only [exec, execClockTick, hc, if_neg h1, if_neg h2]

theorem exec_clockTick_last (hc : s.clock = some 4294967294) :
    exec .clockTick s = .next ({ s with clock := some 4294967295 } : State).goStale := by
  simp only [exec, execClockTick, hc]
  rfl

theorem exec_clockTick_largest {n : Nat} (hc : s.clock = some n) (hn : 4294967295 ≤ n) :
    exec .clockTick s = .next s := by
  have h1 : Config.maxTime ≤ n := hn
  simp only [exec, execClockTick, hc, if_pos h1]

/-- A fresh record that turns stale latches Stale, and GateChange where a gate was Open (R114, R120, R122). -/
theorem State.setConditions_turnStale (fresh : s.conditions.stale = false) :
    s.setConditions s.conditions.turnStale = { s with
      conditions := { s.conditions with stale := true, glue := .closed, exposure := .closed, stop := .closed }
      events := { s.events with
        stale := true
        gateChange := s.events.gateChange || s.conditions.someGateOpen } } := by
  have hg : s.conditions.gatesDiffer s.conditions.turnStale = s.conditions.someGateOpen :=
    Conditions.gatesDiffer_of_closed _ rfl rfl rfl
  have hs : (!s.conditions.stale && s.conditions.turnStale.stale) = true := by
    rw [fresh]
    rfl
  unfold State.setConditions
  rw [hg, hs]
  simp only [State.latchWeather, Bool.or_true]
  rfl

/-- The clock is moved by its own advance, Set Time and power-on reset alone (R106, R107). -/
theorem exec_clock (h : exec c s = .next t) (hc : c ≠ .clockTick) (hr : c ≠ .powerOnReset)
    (ht : ∀ v, c ≠ .setTime v) : t.clock = s.clock := by
  refine exec_keeps (P := fun u => u.clock = s.clock) (fun hin hu => ?_) (fun way => ?_) hr h rfl
  · unfold State.SameInside at hin
    rw [hin]
    exact hu
  · refine way.keeps (P := fun u => u.clock = s.clock) (fun hd hu => ?_) (fun hd hu => ?_)
    · cases hd with
      | clockSet v hv hl => exact absurd hv (ht v)
      | tick now ht => exact absurd ht hc
      | _ => exact hu
    · obtain ⟨_, _, _, _, _, rfl⟩ := hd
      exact hu

/-- Set Time is refused while a carrier is on the line (R107). -/
theorem clock_setTime_of_occupied (v : Word) (h : exec (.setTime v) s = .next t) (occupied : s.line ≠ []) :
    t.clock = s.clock := by
  rcases s.onPlanPort_cases 0x39 .planShaping fun s =>
    if s.line.isEmpty then
      ({ s with clock := some v.toNat }.setConditions { s.conditions.turnStale with lastReport := none }).reply .P
        0x39 .ok (.clockSet v.toNat)
    else s.refuse .P 0x39 .lineNotEmpty with ⟨ht, -⟩ | ⟨st, he⟩
  · rw [exec_setTime_of_occupied ht occupied] at h
    cases h
    exact State.refuse_clock _ _ _ _
  · simp only [exec, execSetTime, he] at h
    cases h
    exact State.refuse_clock _ _ _ _

end

/-- Settles O38: the advance by the clock's value, and every other event by its deeds. -/
theorem clockLaw : Obligations.ClockLaw := by
  unfold Obligations.ClockLaw
  refine ⟨fun s => ⟨fun hc => ?_, fun n hc hn => ?_, fun hc fresh => ?_, fun n hc hn => exec_clockTick_largest hc hn⟩,
    fun c s t h hc hr => ?_⟩
  · simp only [exec, execClockTick, hc]
  · rcases hn with hn | ⟨rfl, stale⟩
    · exact exec_clockTick_below hc hn
    · rw [exec_clockTick_last hc, State.goStale, if_pos stale]
  · rw [exec_clockTick_last hc, State.goStale, if_neg (by rw [fresh]; exact Bool.false_ne_true),
      State.setConditions_turnStale (s := { s with clock := some 4294967295 }) fresh]
  · by_cases ht : ∃ v, c = .setTime v
    · obtain ⟨v, rfl⟩ := ht
      exact ⟨clock_setTime_of_occupied v h, fun _ => ⟨v, rfl⟩⟩
    · have he : t.clock = s.clock := exec_clock h hc hr fun v hv => ht ⟨v, hv⟩
      exact ⟨fun _ => he, (absurd he ·)⟩

/-! ### The watches (R157 to R159) -/

/-- A match as R159 has it, for a watch whose count is in its range. -/
theorem Watch.record_of_lawful {w : Watch} (h : w.lawful = true) (enabled : w.enabled = true) (i : Nat)
    (time : Option Nat) : w.record i time = { w with
      enabled := decide (w.mode = .every)
      latched := true
      count := min 255 (w.count + 1)
      lastSlot := some i
      lastTime := time } := by
  have hcount : w.count ≤ 255 := by
    simp only [Watch.lawful, Bool.and_eq_true, decide_eq_true_eq] at h
    exact h.1.1
  have hmode : (w.mode == .every) = decide (w.mode = .every) := by cases w.mode <;> rfl
  have hmin : (if w.count < Config.watchCountMax then w.count + 1 else w.count) = min 255 (w.count + 1) := by
    rw [show Config.watchCountMax = 255 from rfl]
    split <;> omega
  simp only [Watch.record, enabled, Bool.true_and, hmode, hmin]

theorem Watch.fits_iff (w : Watch) (x : Slot) (st : SlotState) : w.fits x st = true ↔
    w.enabled = true ∧ (w.wall = none ∨ w.wall = some x.wall) ∧ (w.course = none ∨ w.course = some x.course)
      ∧ w.entered = st := by
  have any (o : Option Nat) (n : Nat) : o.all (· == n) = true ↔ o = none ∨ o = some n := by
    cases o <;> simp
  simp only [Watch.fits, Bool.and_eq_true, beq_iff_eq, any, and_assoc]

/-- No command but Watch Set and power-on reset writes a watch's fields, lowers its count or enables it. -/
theorem exec_watches {c : Instr} {s t : State} (h : exec c s = .next t) (hc : ∀ f, c ≠ .watchSet f)
    (hr : c ≠ .powerOnReset) : s.events.Leads t.events := by
  refine exec_keeps (P := fun u => s.events.Leads u.events) (fun hin hu => ?_) (fun way => ?_) hr h
    (Events.Leads.refl _)
  · unfold State.SameInside at hin
    rw [hin]
    exact hu
  · refine way.keeps (P := fun u => s.events.Leads u.events) (fun hd hu => ?_) (fun hd hu => ?_)
    · cases hd with
      | events e he => exact hu.trans he
      | watchSet f w hf => exact absurd hf (hc f)
      | _ => exact hu
    · obtain ⟨_, _, _, _, he, rfl⟩ := hd
      exact hu.trans he

/-- Settles O15: the entry presents the slot to every watch; every command leads each watch on. -/
theorem watchMatching : Obligations.WatchMatching := by
  unfold Obligations.WatchMatching
  refine ⟨fun s i st x f lawful hx => ?_, fun c s t hc hr h k w v hw hv => ?_⟩
  · rw [State.enter_of_slot? hx]
    refine ⟨by rw [Plan.slot?_modifySlot_self, hx]; rfl, fun k w hw => ?_⟩
    dsimp only
    rw [Events.present_getElem?, hw, Option.map_some]
    congr 1
    by_cases fits : w.fits (f x) st = true
    · have hfits := (w.fits_iff (f x) st).1 fits
      rw [if_pos fits, if_pos hfits, Watch.record_of_lawful (Events.lawful_iff.1 lawful k w hw) hfits.1]
    · rw [if_neg fits, if_neg (mt (w.fits_iff (f x) st).2 fits)]
  · have hl := exec_watches h hc hr k w v hw hv
    exact ⟨hl.wall, hl.course, hl.entered, hl.mode, hl.count, hl.enabled⟩

end Sys2Proof.Machine

/-! PROOFS of HELD and STOPX (sections 3.4, 3.6 and 9.4): what each deed does to the line. -/

namespace Sys2Proof.Machine

open Sys2Proof

section
variable {c : Instr} {s t : State} {b : Bool}

/-- STOPX is asserted exactly while a carrier on the line is Faulted (R57). -/
theorem State.stopx_iff (s : State) : s.stopx = true ↔ ∃ d ∈ s.line, d.stage = .faulted := by
  simp only [State.stopx, List.any_eq_true, beq_iff_eq]

theorem State.stopx_eq_false_iff (s : State) : s.stopx = false ↔ ∀ d ∈ s.line, d.stage ≠ .faulted := by
  simp only [State.stopx, List.any_eq_false, beq_iff_eq, ne_eq]

theorem Settles.line (h : Settles s t) : t.line = s.line := by
  cases h with
  | rejudge ids => exact (s.judgedInto_rejudge ids).line
  | reselect => rfl
  | wallState w st hw => exact (State.judgedInto_rejudge (s.modifyWall w fun x => { x with state := st }) _).line

theorem Settles.hold (h : Settles s t) : t.dispatcher.hold = s.dispatcher.hold := by
  obtain ⟨_, _, _, _, _, rfl⟩ := h.onTables
  rfl

theorem Disturb.hold (h : Disturb c s t) : t.dispatcher.hold = s.dispatcher.hold := by
  obtain ⟨_, _, _, _, _, rfl⟩ := h.onTables
  rfl

/-! ### HELD (R66) -/

theorem Quiet.hold (h : Quiet c s t) (hh : c ≠ .hold) (hr : c ≠ .release) :
    t.dispatcher.hold = s.dispatcher.hold := by
  cases h with
  | dispatcher d hq hd =>
    rcases hd with hd | hd | hd
    · exact hd
    · exact absurd hd hh
    · exact absurd hd hr
  | _ => rfl

/-- The hold request is changed by Hold, Release and power-on reset alone (R65, R70). -/
theorem exec_hold_request (h : exec c s = .next t) (hh : c ≠ .hold) (hr : c ≠ .release) (hp : c ≠ .powerOnReset) :
    t.dispatcher.hold = s.dispatcher.hold := by
  refine exec_keeps (P := fun u => u.dispatcher.hold = s.dispatcher.hold) (fun hin hu => ?_) (fun way => ?_) hp h rfl
  · unfold State.SameInside at hin
    rw [hin]
    exact hu
  · refine way.keeps (P := fun u => u.dispatcher.hold = s.dispatcher.hold) (fun hd hu => ?_) (fun hd hu => ?_)
    · rw [hd.hold hh hr]
      exact hu
    · obtain ⟨_, _, _, _, _, rfl⟩ := hd
      exact hu

/-- The line is empty and no Claim can take a brick. -/
def State.StaysEmpty (c : Instr) (s : State) : Prop := s.line = [] ∧ (c = .claim → s.dispatcher.hold = true)

theorem Quiet.staysEmpty (h : Quiet c s t) (hs : s.StaysEmpty c) : t.StaysEmpty c := by
  obtain ⟨hl, hh⟩ := hs
  refine ⟨?_, fun hc => ?_⟩
  · cases h with
    | reports d st deadline hd hd' ht hf => rw [hl] at hd; cases hd
    | faults d hc hd => rw [hl] at hd; cases hd
    | targets d l tg corrected openLeft hd hf => rw [hl] at hd; cases hd
    | _ => exact hl
  · rw [h.hold (by rw [hc]; exact nofun) (by rw [hc]; exact nofun)]
    exact hh hc

theorem Disturb.staysEmpty (h : Disturb c s t) (hs : s.StaysEmpty c) : t.StaysEmpty c := by
  refine ⟨?_, fun hc => h.hold.trans (hs.2 hc)⟩
  cases h with
  | take i x r hcl hq hx hh hc hl => rw [hs.2 hcl] at hh; cases hh
  | lay d x st a late hd hx hst ht => rw [hs.1] at hd; cases hd
  | drop d x hc hd hx => rw [hs.1] at hd; cases hd
  | clearLine hc => exact s.clearLine_line
  | retireWall w hw ha => exact (State.line_foldl_retire _ _).trans hs.1
  | _ => exact hs.1

theorem Way.staysEmpty (h : Way c s b t) (hs : s.StaysEmpty c) : t.StaysEmpty c := by
  induction h with
  | start => exact hs
  | quiet _ hd ih => exact hd.staysEmpty ih
  | disturb _ hd ih => exact hd.staysEmpty ih
  | settle _ hd ih => exact ⟨hd.line.trans ih.1, fun hc => hd.hold.trans (ih.2 hc)⟩

/-- While HELD stands no carrier joins the line (R48, R66). -/
theorem exec_line_of_held (h : exec c s = .next t) (held : s.held = true) : t.line = [] := by
  obtain ⟨hold, line⟩ := s.held_iff.1 held
  by_cases hr : c = .powerOnReset
  · subst hr
    cases h
    rfl
  · refine (exec_keeps (P := State.StaysEmpty c) (fun hin hu => ?_) Way.staysEmpty hr h ⟨line, fun _ => hold⟩).1
    unfold State.SameInside at hin
    rw [hin]
    exact hu

/-! ### STOPX rises (R57) -/

theorem mem_lineWith {line : List Carrier} {tag : Nat} {f : Carrier → Carrier} {e : Carrier}
    (h : e ∈ lineWith line tag f) : e ∈ line ∨ ∃ d ∈ line, d.tag = tag ∧ e = f d := by
  obtain ⟨d, hd, rfl⟩ := List.mem_map.1 h
  by_cases hdt : d.tag = tag
  · exact .inr ⟨d, hd, hdt, if_pos hdt⟩
  · rw [if_neg hdt]
    exact .inl hd

/-- A carrier that takes a stage other than Faulted does not raise STOPX. -/
theorem State.stopx_modifyCarrier {tag : Nat} {f : Carrier → Carrier} (hs : s.stopx = false)
    (hf : ∀ d, (f d).stage ≠ .faulted) : (s.modifyCarrier tag f).stopx = false := by
  rw [State.stopx_eq_false_iff] at hs ⊢
  rw [State.modifyCarrier_eq]
  intro e he
  rcases mem_lineWith he with he | ⟨d, -, -, rfl⟩
  · exact hs e he
  · exact hf d

theorem Quiet.stopx (h : Quiet c s t) (hc : ∀ tag, c ≠ .targetRequest tag) (hs : s.stopx = false) :
    t.stopx = false := by
  cases h with
  | reports d st deadline hd hd' ht hf => exact State.stopx_modifyCarrier hs fun _ => hf
  | faults d hc' hd =>
    obtain ⟨tag, hc'⟩ := hc'
    exact absurd hc' (hc tag)
  | targets d l tg corrected openLeft hd hf => exact State.stopx_modifyCarrier hs fun _ => nofun
  | _ => exact hs

/-- A line that loses carriers does not raise STOPX. -/
theorem State.stopx_of_subset (h : ∀ d ∈ t.line, d ∈ s.line) (hs : s.stopx = false) : t.stopx = false := by
  rw [State.stopx_eq_false_iff] at hs ⊢
  exact fun d hd => hs d (h d hd)

theorem Disturb.stopx (h : Disturb c s t) (hs : s.stopx = false) : t.stopx = false := by
  cases h with
  | take i x r hcl hq hx hh hc hl =>
    rw [State.stopx_eq_false_iff] at hs ⊢
    intro d hd
    rcases List.mem_append.1 hd with hd | hd
    · exact hs d hd
    · rw [List.mem_singleton] at hd
      rw [hd]
      exact nofun
  | lay d x st a late hd hx hst ht => exact State.stopx_of_subset (fun e he => (List.mem_filter.1 he).1) hs
  | drop d x hc hd hx =>
    refine State.stopx_of_subset (fun e he => ?_) hs
    rw [State.dropCarrier_line] at he
    exact (List.mem_filter.1 he).1
  | clearLine hc =>
    refine State.stopx_of_subset (fun e he => ?_) hs
    rw [State.clearLine_line] at he
    cases he
  | retireWall w hw ha =>
    refine State.stopx_of_subset (s := s) (fun e he => ?_) hs
    unfold State.retireWall at he
    rw [State.line_foldl_retire] at he
    exact he
  | _ => exact hs

theorem Way.stopx (h : Way c s b t) (hc : ∀ tag, c ≠ .targetRequest tag) (hs : s.stopx = false) :
    t.stopx = false := by
  induction h with
  | start => exact hs
  | quiet _ hd ih => exact hd.stopx hc ih
  | disturb _ hd ih => exact hd.stopx ih
  | settle _ hd ih => exact State.stopx_of_subset (fun e he => hd.line ▸ he) ih

theorem State.SameInside.line (h : s.SameInside t) : t.line = s.line := by
  unfold State.SameInside at h
  rw [h]

/-- STOPX rises at a Target Request alone (R57). -/
theorem exec_stopx (h : exec c s = .next t) (hc : ∀ tag, c ≠ .targetRequest tag) (hs : s.stopx = false) :
    t.stopx = false := by
  by_cases hr : c = .powerOnReset
  · subst hr
    cases h
    rfl
  · exact exec_keeps (P := fun u => u.stopx = false)
      (fun hin hu => State.stopx_of_subset (fun e he => hin.line ▸ he) hu) (fun way => way.stopx hc) hr h hs

/-- What a Target Request makes of the line: nothing, or its front carrier Faulted or Targeted (R55 to R57). -/
theorem line_targetRequest {tag : Byte} (h : exec (.targetRequest tag) s = .next t) : t.line = s.line
    ∨ ∃ d, s.line.head? = some d ∧ d.tag = tag.toNat ∧ d.stage = .glued
      ∧ (t.line = lineWith s.line d.tag (fun e => { e with stage := .faulted })
        ∨ ∃ l, t.line = lineWith s.line d.tag fun e => { e with stage := .targeted, left := some l, targeted := true
          }) := by
  simp only [exec, execTargetRequest] at h
  cases hd : s.carrier? tag.toNat with
  | none =>
    rw [State.withCarrier_none hd] at h
    cases h
    exact .inl (State.refuse_line _ _ _ _)
  | some d =>
    obtain ⟨-, htag⟩ := State.carrier?_some hd
    rw [State.withCarrier_some hd, State.whenFront] at h
    split at h
    case isFalse =>
      cases h
      exact .inl (State.refuse_line _ _ _ _)
    case isTrue front =>
      have hhead : s.line.head? = some d := by
        obtain ⟨e, he, het⟩ := State.isFront_iff.1 front
        rw [he, ← hd, ← htag, ← State.carrier?_head he het]
      split at h
      case h_5 glued =>
        split at h
        · cases h
        · split at h
          · cases h
            refine .inr ⟨d, hhead, htag, glued, .inl ?_⟩
            rw [State.reply_line, State.modifyCarrier_eq]
          · rename_i l _
            cases h
            refine .inr ⟨d, hhead, htag, glued, .inr ⟨l, ?_⟩⟩
            unfold State.issueTarget
            rw [State.reply_line, State.modifySlot_line, State.modifyCarrier_eq]
      case h_6 =>
        split at h
        · cases h
        · split at h <;> cases h
          exact .inl (State.reply_line _ _ _ _ _)
      all_goals cases h
      · exact .inl (State.refuse_line _ _ _ _)
      · exact .inl (State.refuse_line _ _ _ _)
      · exact .inl (State.refuse_line _ _ _ _)
      · exact .inl (State.reply_line _ _ _ _ _)

theorem head?_lineWith {line : List Carrier} {d : Carrier} (h : line.head? = some d) (f : Carrier → Carrier) :
    (lineWith line d.tag f).head? = some (f d) := by
  unfold lineWith
  rw [List.head?_map, h, Option.map_some, if_pos rfl]

/-- Where STOPX rises, the front carrier was Glued and is Faulted (R57). -/
theorem exec_stopx_rises (h : exec c s = .next t) (hs : s.stopx = false) (ht : t.stopx = true) :
    ∃ (tag : Byte) (d e : Carrier), c = .targetRequest tag ∧ s.line.head? = some d ∧ d.tag = tag.toNat
      ∧ d.stage = .glued ∧ t.line.head? = some e ∧ e = { d with stage := .faulted } := by
  by_cases hc : ∃ tag, c = .targetRequest tag
  · obtain ⟨tag, rfl⟩ := hc
    rcases line_targetRequest h with hl | ⟨d, hhead, htag, hglued, hl | ⟨l, hl⟩⟩
    · rw [State.stopx_of_subset (fun e he => hl ▸ he) hs] at ht
      cases ht
    · exact ⟨tag, d, _, rfl, hhead, htag, hglued, by rw [hl, head?_lineWith hhead], rfl⟩
    · have : t.stopx = false := by
        rw [State.stopx_eq_false_iff] at hs ⊢
        rw [hl]
        intro e he
        rcases mem_lineWith he with he | ⟨d, -, -, rfl⟩
        · exact hs e he
        · exact nofun
      rw [this] at ht
      cases ht
  · rw [exec_stopx h (fun tag hct => hc ⟨tag, hct⟩) hs] at ht
    cases ht

/-! ### STOPX falls (R57, R61, R69) -/

/-- A Faulted carrier stands on a line of distinct tags, and it is not the one a Reject names. -/
def State.StaysStopped (c : Instr) (s : State) : Prop :=
  (s.line.map Carrier.tag).Nodup
    ∧ ∃ e ∈ s.line, e.stage = .faulted ∧ ∀ tag reason, c = .reject tag reason → e.tag ≠ tag.toNat

/-- A carrier's record changes, its tag does not, and no Faulted carrier takes another stage. -/
theorem State.StaysStopped.modifyCarrier (hs : s.StaysStopped c) {tag : Nat} {f : Carrier → Carrier}
    (ht : ∀ d, (f d).tag = d.tag) (hf : ∀ e ∈ s.line, e.tag = tag → e.stage = .faulted → (f e).stage = .faulted) :
    (s.modifyCarrier tag f).StaysStopped c := by
  obtain ⟨nodup, e, he, hst, hrej⟩ := hs
  refine ⟨?_, if e.tag = tag then f e else e, ?_, ?_, fun tag' reason hc => ?_⟩
  · have : (lineWith s.line tag f).map Carrier.tag = s.line.map Carrier.tag := by
      unfold lineWith
      rw [List.map_map]
      refine List.map_congr_left fun d _ => ?_
      simp only [Function.comp]
      split
      · exact ht d
      · rfl
    rw [State.modifyCarrier_eq, this]
    exact nodup
  · rw [State.modifyCarrier_eq]
    exact List.mem_map_of_mem he
  · split
    · rename_i het
      exact hf e he het hst
    · exact hst
  · have := hrej tag' reason hc
    split
    · rw [ht]
      exact this
    · exact this

/-- The carrier of a tag that is not Faulted is not a Faulted one, where tags are distinct. -/
theorem ne_faulted_of_tag {line : List Carrier} (nodup : (line.map Carrier.tag).Nodup) {d e : Carrier}
    (hd : d ∈ line) (he : e ∈ line) (htag : e.tag = d.tag) (hst : d.stage ≠ .faulted) : e.stage ≠ .faulted := by
  have : e = d := List.inj_on_of_nodup_map nodup he hd htag
  rw [this]
  exact hst

theorem Quiet.staysStopped (h : Quiet c s t) (hs : s.StaysStopped c) : t.StaysStopped c := by
  cases h with
  | reports d st deadline hd hd' ht hf =>
    exact hs.modifyCarrier (fun _ => rfl) fun e he het hst => absurd hst (ne_faulted_of_tag hs.1 hd he het hd')
  | faults d hc hd => exact hs.modifyCarrier (fun _ => rfl) fun e he het hst => rfl
  | targets d l tg corrected openLeft hd hf =>
    exact hs.modifyCarrier (fun _ => rfl) fun e he het hst =>
      absurd hst (ne_faulted_of_tag hs.1 (List.mem_of_mem_head? hd) he het hf)
  | _ => exact hs

/-- Another carrier leaves the line. -/
theorem State.StaysStopped.filter (hs : s.StaysStopped c) {q : Carrier → Bool}
    (hq : ∀ e ∈ s.line, e.stage = .faulted → (∀ tag reason, c = .reject tag reason → e.tag ≠ tag.toNat) → q e = true)
    (hl : t.line = s.line.filter q) : t.StaysStopped c := by
  obtain ⟨nodup, e, he, hst, hrej⟩ := hs
  refine ⟨?_, e, ?_, hst, hrej⟩
  · rw [hl]
    exact nodup.sublist (List.filter_sublist.map _)
  · rw [hl]
    exact List.mem_filter.2 ⟨he, hq e he hst hrej⟩

theorem Disturb.staysStopped (h : Disturb c s t) (hc : c ≠ .lineReset) (hs : s.StaysStopped c) :
    t.StaysStopped c := by
  cases h with
  | take i x r hcl hq hx hh hck hl =>
    obtain ⟨nodup, e, he, hst, hrej⟩ := hs
    refine ⟨?_, e, List.mem_append_left _ he, hst, hrej⟩
    rw [List.map_append, List.nodup_append]
    refine ⟨nodup, List.nodup_singleton _, fun tag htag n hn => ?_⟩
    obtain ⟨d, hd, rfl⟩ := List.mem_map.1 htag
    rw [List.map_singleton, List.mem_singleton] at hn
    rw [hn]
    exact (s.freeTag_lowest hl).2.1 d hd
  | lay d x st a late hd hx hst ht =>
    refine hs.filter (q := fun e => decide (e.tag ≠ d.tag)) (fun e he hef _ => ?_) rfl
    refine decide_eq_true fun het => ?_
    have hd' : d.stage ≠ .faulted := by
      rcases ht with ht | ⟨ht, -⟩
      · rw [ht]; exact nofun
      · rw [ht]; exact nofun
    exact ne_faulted_of_tag hs.1 hd he het hd' hef
  | drop d x hrej hd hx =>
    obtain ⟨tag, reason, rfl, htag⟩ := hrej
    refine hs.filter (q := fun e => e.tag != d.tag) (fun e he hef hne => ?_) (s.dropCarrier_line d)
    rw [htag]
    exact bne_iff_ne.2 (hne tag reason rfl)
  | clearLine hcl => exact absurd hcl hc
  | retireWall w hw ha =>
    refine State.StaysStopped.filter (s := s) hs (q := fun _ => true) (fun _ _ _ _ => rfl) ?_
    rw [List.filter_true]
    exact State.line_foldl_retire _ _
  | _ => exact hs

theorem State.StaysStopped.of_line (hs : s.StaysStopped c) (h : t.line = s.line) : t.StaysStopped c := by
  unfold State.StaysStopped at hs ⊢
  rw [h]
  exact hs

theorem Way.staysStopped (h : Way c s b t) (hc : c ≠ .lineReset) (hs : s.StaysStopped c) : t.StaysStopped c := by
  induction h with
  | start => exact hs
  | quiet _ hd ih => exact hd.staysStopped ih
  | disturb _ hd ih => exact hd.staysStopped hc ih
  | settle _ hd ih => exact ih.of_line hd.line

/-- STOPX falls at the Reject of a Faulted carrier or at a reset alone. -/
theorem exec_stopx_falls (h : exec c s = .next t) (nodup : (s.line.map Carrier.tag).Nodup) (hs : s.stopx = true)
    (ht : t.stopx = false) : c = .lineReset ∨ c = .powerOnReset ∨ ∃ (tag reason : Byte) (d : Carrier),
      c = .reject tag reason ∧ d ∈ s.line ∧ d.tag = tag.toNat ∧ d.stage = .faulted := by
  by_contra hno
  simp only [not_or] at hno
  obtain ⟨hc, hr, hrej⟩ := hno
  obtain ⟨e, he, hst⟩ := s.stopx_iff.1 hs
  have start : s.StaysStopped c :=
    ⟨nodup, e, he, hst, fun tag reason hct htag => hrej ⟨tag, reason, e, hct, he, htag, hst⟩⟩
  obtain ⟨-, d, hd, hdst, -⟩ := exec_keeps (P := State.StaysStopped c) (fun hin hu => hu.of_line hin.line)
    (fun way => way.staysStopped hc) hr h start
  exact (t.stopx_eq_false_iff.1 ht) d hd hdst

/-- A Reject of the Faulted front carrier leaves no Faulted carrier (R57, R61). -/
theorem stopx_reject {tag reason : Byte} {d : Carrier} (h : exec (.reject tag reason) s = .next t)
    (law : s.faultedLaw) (hhead : s.line.head? = some d) (htag : d.tag = tag.toNat) : t.stopx = false := by
  simp only [exec, execReject] at h
  rw [State.withCarrier_some (State.carrier?_head hhead htag)] at h
  split at h
  · cases h
  · cases h
    rw [State.stopx_eq_false_iff]
    intro e he
    rw [State.reply_line, (State.judgedInto_rejudge _ _).line, State.dropCarrier_line] at he
    obtain ⟨hmem, hne⟩ := List.mem_filter.1 he
    rw [← List.cons_head?_tail hhead] at hmem
    rcases List.mem_cons.1 hmem with rfl | hmem
    · simp at hne
    · exact law e hmem

end

/-- Settles O21: no deed but a Claim's joins the line, and each other deed leaves a Faulted carrier as it is, but for the
Target Request that makes the front carrier Faulted and the Reject and the resets that remove it. -/
theorem heldLaw : Obligations.HeldLaw := by
  unfold Obligations.HeldLaw
  refine ⟨fun s => ⟨s.held_iff, s.stopx_iff⟩, fun c s t h => ⟨fun held hold => ?_, fun hne => ?_,
    exec_stopx_rises h, exec_stopx_falls h, ?_, ?_⟩⟩
  · exact t.held_iff.2 ⟨hold, exec_line_of_held h held⟩
  · by_contra hno
    simp only [not_or] at hno
    exact hne (exec_hold_request h hno.1 hno.2.1 hno.2.2)
  · rintro tag reason d rfl law hhead htag -
    exact stopx_reject h law hhead htag
  · rintro rfl
    cases h
    rfl

end Sys2Proof.Machine

/-! PROOFS of the frames that are not taken and of the order of the responses (sections 10.2 to 10.4). -/

namespace Sys2Proof.Machine

open Sys2Proof

section
variable {c : Instr} {s t : State} {p : Port}

/-! ### The link rows (R170 to R172) -/

theorem lengthTaken_of_outside {n : Byte} (h : n.toNat = 0 ∨ 250 < n.toNat) : lengthTaken n = false := by
  unfold lengthTaken
  rcases h with h | h
  · rw [h]
    rfl
  · rw [decide_eq_false (Nat.not_le.2 h), Bool.and_false]

theorem rowOfFrame_of_mismatch {frame : List Byte} (h : checkMatches frame = false) :
    rowOfFrame p frame = .frameCheckFail p frame := by
  unfold rowOfFrame
  rw [h]
  rfl

theorem exec_frameCheckFail {frame : List Byte} (complete : frameComplete frame = true)
    (taken : lengthTaken (byteAt frame 0) = true) (mismatch : checkMatches frame = false) :
    exec (.frameCheckFail p frame) s = .next (s.discardFrame p) := by
  simp only [exec, execFrameCheckFail, complete, taken, mismatch]
  rfl

/-- A length out of its range ends the frame at once (R170). -/
theorem receiveAll_of_length_outside {n : Byte} (h : lengthTaken n = false) :
    receiveAll p .hunting [0xA5#8, n] = (.hunting, [.frameLengthOutOfRange p n]) := by
  have : receiveByte p (.collecting []) n = (.hunting, [.frameLengthOutOfRange p n]) := by
    simp only [receiveByte, h]
    rfl
  rw [receiveAll_cons, show receiveByte p .hunting 0xA5#8 = (.collecting [], []) from rfl]
  dsimp only
  rw [receiveAll_cons, this]
  rfl

theorem exec_frameLengthOutOfRange {n : Byte} (h : lengthTaken n = false) :
    exec (.frameLengthOutOfRange p n) s = .next (s.discardFrame p) := by
  simp only [exec, execFrameLengthOutOfRange, h]
  rfl

theorem exec_frameGapTimeout_of_hunting (h : (s.port p).receiver = .hunting) :
    exec (.frameGapTimeout p) s = .next s := by
  simp only [exec, execFrameGapTimeout, h]

theorem exec_frameGapTimeout_of_collecting (h : (s.port p).receiver ≠ .hunting) :
    exec (.frameGapTimeout p) s = .next (s.discardFrame p) := by
  cases hr : (s.port p).receiver with
  | hunting => exact absurd hr h
  | collecting bytes => simp only [exec, execFrameGapTimeout, hr]

theorem exec_unknownCode_of_unknown {code : Byte} {body : List Byte} (short : body.length < 250)
    (unknown : bodySizes p code = none) : exec (.unknownCode p code body) s = .next (s.refuse p code .unknown) := by
  simp only [exec, execUnknownCode, if_neg (Nat.not_le.2 short), unknown]

theorem exec_unknownCode_of_malformed {code : Byte} {body : List Byte} {sizes : List Nat} (short : body.length < 250)
    (known : bodySizes p code = some sizes) (size : body.length ∉ sizes) :
    exec (.unknownCode p code body) s = .next (s.refuse p code .malformed) := by
  have : ¬ sizes.contains body.length = true := by rwa [List.contains_iff_mem]
  simp only [exec, execUnknownCode, if_neg (Nat.not_le.2 short), known, if_neg this]

/-- An ending response that cannot be sent is not sent (R174). -/
theorem exec_endingResponseSend_of_not_free (h : s.portP.waiting = none ∨ s.portP.receiver ≠ .hunting) :
    exec .endingResponseSend s = .next s := by
  simp only [exec, execEndingResponseSend]
  split
  · rename_i waits hunts
    rcases h with h | h
    · rw [waits] at h
      cases h
    · exact absurd hunts h
  · rfl

/-! ### A port's responses (R174) -/

theorem State.discardFrame_eq (s : State) (p : Port) : s.discardFrame p = s.setPort p
    (if (s.port p).behind = none then { s.port p with receiver := .hunting }
    else { s.port p with
      receiver := .hunting
      sent := (s.port p).sent ++ (s.port p).waiting.toList
      waiting := (s.port p).behind
      behind := none }) := by
  have hset : s.discardFrame p = s.setPort p ({ s.port p with receiver := .hunting } : PortState).release := by
    cases p <;> rfl
  rw [hset, PortState.release]
  cases hb : (s.port p).behind with
  | none => rfl
  | some r => rfl

/-- A port sends on: what it has sent stays, and at most one response joins the others, last of all or as the answer that
what is held behind it follows. -/
def PortState.SendsOn (x y : PortState) : Prop :=
  x.sent <+: y.sent ∧ (y.inOrder = x.inOrder ∨ (∃ r, y.inOrder = x.inOrder ++ [r])
    ∨ ∃ r, y.sent = x.sent ++ x.waiting.toList ++ [r] ∧ y.waiting = x.behind ∧ y.behind = none)

/-- Nothing is sent and nothing falls due. -/
theorem PortState.sendsOn_of_same {x y : PortState} (sent : y.sent = x.sent) (waiting : y.waiting = x.waiting)
    (behind : y.behind = x.behind) : x.SendsOn y :=
  ⟨sent ▸ List.prefix_refl _, .inl (by unfold PortState.inOrder; rw [sent, waiting, behind])⟩

theorem PortState.SendsOn.refl (x : PortState) : x.SendsOn x := ⟨List.prefix_refl _, .inl rfl⟩

theorem PortState.sendsOn_send (x : PortState) (r : Response) : x.SendsOn (x.send r) :=
  ⟨by rw [PortState.send_sent, List.append_assoc]; exact List.prefix_append _ _, .inr (.inr ⟨r, rfl, rfl, rfl⟩)⟩

theorem PortState.sendsOn_release (x : PortState) : x.SendsOn x.release :=
  ⟨x.sent_release_prefix, .inl x.inOrder_release⟩

theorem PortState.sendsOn_ending (x : PortState) (r : Response) : x.SendsOn (x.ending r) :=
  ⟨x.sent_ending_prefix r, .inr (.inl ⟨r, x.inOrder_ending r⟩)⟩

/-- What waits is sent: no response changes its place. -/
theorem PortState.sendsOn_waited {x : PortState} {r : Response} (h : x.waiting = some r) :
    x.SendsOn { x with sent := x.sent ++ [r], waiting := none } := by
  refine ⟨List.prefix_append _ _, .inl ?_⟩
  simp [PortState.inOrder, h]

/-- One port sends on, the other stands. -/
theorem State.sendsOn_setPort {p : Port} {x : PortState} (hx : (s.port p).SendsOn x) (q : Port) :
    (s.port q).SendsOn ((s.setPort p x).port q) := by
  rw [State.port_setPort]
  split
  · rename_i hq
    rw [hq]
    exact hx
  · exact .refl _

theorem Answered.sendsOn (h : Answered c s t) (hc : c ≠ .powerOnReset) (q : Port) : (s.port q).SendsOn (t.port q) := by
  cases h with
  | silent => exact .refl _
  | reply p code st r => exact State.sendsOn_setPort (PortState.sendsOn_send _ _) q
  | released => exact State.sendsOn_setPort (PortState.sendsOn_release _) q
  | discarded p =>
    have hset : s.discardFrame p = s.setPort p ({ s.port p with receiver := .hunting } : PortState).release := by
      cases p <;> rfl
    rw [hset]
    exact State.sendsOn_setPort (PortState.sendsOn_release { s.port p with receiver := .hunting }) q
  | due r => exact State.sendsOn_setPort (p := .P) (PortState.sendsOn_ending _ _) q
  | swept i hsweep hi =>
    exact State.sendsOn_setPort (p := .P) (x := { s.portP with cursor := i }) (PortState.sendsOn_of_same rfl rfl rfl) q
  | hunting hreset =>
    exact State.sendsOn_setPort (p := .M) (x := { s.portM with receiver := .hunting }) (PortState.sendsOn_of_same rfl rfl rfl) q
  | waited r hr => exact State.sendsOn_setPort (p := .P) (PortState.sendsOn_waited hr) q
  | powerOn hreset => exact absurd hreset hc

/-- An address moves a port's cursor and nothing else of it. -/
theorem Addressed.port {u : State} (h : Addressed c s u) (q : Port) : ∃ i, u.port q = { s.port q with cursor := i } := by
  cases h with
  | plain => exact ⟨_, rfl⟩
  | refused => exact ⟨_, rfl⟩
  | @resolved p _ _ _ i =>
    unfold State.setCursor
    rw [State.port_setPort]
    split
    · rename_i hq
      rw [hq]
      exact ⟨i, rfl⟩
    · exact ⟨_, rfl⟩

/-- A port's responses after a command (R174). -/
theorem exec_sendsOn (h : exec c s = .next t) (hc : c ≠ .powerOnReset) (q : Port) :
    (s.port q).SendsOn (t.port q) := by
  obtain ⟨u, ha, v, hw, hans⟩ := exec_does h
  obtain ⟨i, hu⟩ := ha.port q
  have hv := hans.sendsOn hc q
  rw [hw.port, hu] at hv
  exact hv

end

/-- Settles O3: each link row by its definition, and the order of the responses from what an answer does to a port. -/
theorem framesThatAreNotTaken : Obligations.FramesThatAreNotTaken := by
  unfold Obligations.FramesThatAreNotTaken
  refine ⟨fun p frame s complete taken mismatch => ⟨?_, exec_frameCheckFail complete taken mismatch⟩,
    fun p n s outside => ⟨receiveAll_of_length_outside (lengthTaken_of_outside outside),
      exec_frameLengthOutOfRange (lengthTaken_of_outside outside)⟩,
    fun p bytes s => ⟨rfl, rfl, exec_frameGapTimeout_of_hunting, exec_frameGapTimeout_of_collecting⟩,
    fun p code body s short => ⟨exec_unknownCode_of_unknown short,
      fun sizes known size => exec_unknownCode_of_malformed short known size⟩,
    fun s => ⟨fun r waits hunts => ?_, exec_endingResponseSend_of_not_free⟩,
    fun p s => ⟨s.discardFrame_eq p, fun code st b => rfl⟩,
    fun c s t p hc h => exec_sendsOn h hc p⟩
  · rw [receiveAll_frame p frame complete taken, rowOfFrame_of_mismatch mismatch]
  · simp only [exec, execEndingResponseSend, waits, hunts]

/-! ### Nothing stops the part -/

section
variable {c : Instr} {s : State}

/-- A report goes on to have its effect if it does so with every carrier of the line. -/
theorem completes_withCarrier {code tag : Byte} {take : Carrier → State → Result}
    (h : ∀ d ∈ s.line, Completes (take d s)) : Completes (s.withCarrier code tag take) := by
  cases hd : s.carrier? tag.toNat with
  | none => exact ⟨_, State.withCarrier_none hd take⟩
  | some d =>
    rw [State.withCarrier_some hd]
    exact h d (State.carrier?_some hd).1

theorem completes_whenFront {code : Byte} {d : Carrier} {take : State → Result} (h : Completes (take s)) :
    Completes (s.whenFront code d take) := by
  unfold State.whenFront
  split
  · exact h
  · exact ⟨_, rfl⟩

/-- The site clock is set while a carrier is on the line (R54). -/
theorem State.Consistent.clock_of_mem (hs : s.Consistent) {d : Carrier} (hd : d ∈ s.line) :
    ∃ now, s.clock = some now :=
  Option.isSome_iff_exists.1 (hs.clock (List.ne_nil_of_mem hd))

/-- A carrier's slot stands (R46). -/
theorem State.Consistent.slot_of_mem (hs : s.Consistent) {d : Carrier} (hd : d ∈ s.line) :
    ∃ x, s.plan.slot? d.slot = some x := by
  obtain ⟨x, hx, -⟩ := Plan.claimedBy_iff.1 (hs.line.2.1 d hd).2
  exact ⟨x, hx⟩

/-- The slot of a Targeted carrier has its target part (R56, R89). -/
theorem State.Consistent.target_of_mem (hs : s.Consistent) {d : Carrier} (hd : d ∈ s.line)
    (targeted : d.stage = .targeted) {x : Slot} (hx : s.plan.slot? d.slot = some x) : ∃ g, x.target = some g := by
  have := (hs.target d hd).2 ((hs.target d hd).1 targeted)
  rw [hx] at this
  exact Option.isSome_iff_exists.1 this

theorem completes_cutDone (tag : Byte) : Completes (exec (.cutDone tag) s) := by
  unfold exec execCutDone
  refine completes_withCarrier fun d _ => ?_
  split <;> exact ⟨_, rfl⟩

theorem completes_glued (hs : s.Consistent) (tag : Byte) : Completes (exec (.glued tag) s) := by
  unfold exec execGlued
  refine completes_withCarrier fun d hd => ?_
  obtain ⟨now, clock⟩ := hs.clock_of_mem hd
  split
  · rw [clock]
    exact ⟨_, rfl⟩
  · exact ⟨_, rfl⟩

theorem completes_targetRequest (hs : s.Consistent) (tag : Byte) : Completes (exec (.targetRequest tag) s) := by
  refine completes_withCarrier fun d hd => completes_whenFront ?_
  obtain ⟨x, hx⟩ := hs.slot_of_mem hd
  cases hst : d.stage with
  | glued =>
    dsimp only
    rw [hx]
    dsimp only
    split <;> exact ⟨_, rfl⟩
  | targeted =>
    obtain ⟨g, hg⟩ := hs.target_of_mem hd hst hx
    dsimp only
    rw [hx]
    dsimp only
    rw [hg]
    exact ⟨_, rfl⟩
  | _ => exact ⟨_, rfl⟩

theorem completes_laid (hs : s.Consistent) (tag : Byte) (f : LaidFields) : Completes (exec (.laid tag f) s) := by
  unfold exec execLaid
  refine completes_withCarrier fun d hd => ?_
  split
  · refine completes_whenFront ?_
    split
    · rename_i may
      obtain ⟨x, hx⟩ := hs.slot_of_mem hd
      obtain ⟨now, clock⟩ := hs.clock_of_mem hd
      rw [hx, clock]
      dsimp only
      split
      · exact ⟨_, rfl⟩
      · rename_i expired
        obtain ⟨g, hg⟩ := hs.target_of_mem hd (may.resolve_right fun h => expired h.1) hx
        rw [hg]
        dsimp only
        split <;> exact ⟨_, rfl⟩
    · exact ⟨_, rfl⟩
  · exact ⟨_, rfl⟩

theorem completes_reject (hs : s.Consistent) (tag reason : Byte) : Completes (exec (.reject tag reason) s) := by
  unfold exec execReject
  refine completes_withCarrier fun d hd => ?_
  obtain ⟨x, hx⟩ := hs.slot_of_mem hd
  rw [hx]
  exact ⟨_, rfl⟩

theorem completes_unknownCode {p : Port} {code : Byte} {body : List Byte}
    (hwf : (Instr.unknownCode p code body).wellFormed = true) : Completes (exec (.unknownCode p code body) s) := by
  simp only [Instr.wellFormed, Bool.and_eq_true, Bool.not_eq_true', decide_eq_true_eq] at hwf
  obtain ⟨unknown, short⟩ := hwf
  cases hb : bodySizes p code with
  | none => exact ⟨_, exec_unknownCode_of_unknown short hb⟩
  | some sizes =>
    refine ⟨_, exec_unknownCode_of_malformed short hb fun size => ?_⟩
    simp only [isCommand, hb] at unknown
    rw [List.contains_iff_mem.2 size] at unknown
    cases unknown

/-- A command that its row describes has its effect in a state that meets the laws. -/
theorem completes_exec (hs : s.Consistent) (hwf : c.wellFormed = true) : Completes (exec c s) := by
  cases c with
  | cutDone tag => exact completes_cutDone tag
  | glued tag => exact completes_glued hs tag
  | targetRequest tag => exact completes_targetRequest hs tag
  | laid tag f => exact completes_laid hs tag f
  | reject tag reason => exact completes_reject hs tag reason
  | unknownCode p code body => exact completes_unknownCode hwf
  | frameCheckFail p frame => exact ⟨_, if_pos hwf⟩
  | frameLengthOutOfRange p n =>
    exact ⟨_, exec_frameLengthOutOfRange (by simpa only [Instr.wellFormed, Bool.not_eq_true'] using hwf)⟩
  | _ => exact ⟨_, rfl⟩

end

/-- Settles O59: the faults need a carrier that the laws of the line rule out, the refusals a term that is no instance of
its row. -/
theorem noCommandStops : Obligations.NoCommandStops := by
  unfold Obligations.NoCommandStops
  refine ⟨fun s c hs hwf => completes_exec hs hwf, fun s hs hwf => ?_⟩
  unfold step
  split
  · rename_i c rest pending
    exact completes_exec (s := { s with pending := rest })
      ⟨hs.table, hs.queue, hs.line, hs.clock, hs.target, hs.walls⟩ (hwf c (by rw [pending]; rfl))
  · exact ⟨_, rfl⟩

end Sys2Proof.Machine

/-! PROOFS of the frame layouts (sections 10.2, 10.3 and 10.5): each field is read back from the bytes that carry it, each
command from its body, and each frame from its bytes. -/

namespace Sys2Proof.Machine

open Sys2Proof

/-! ### Fields (R173) -/

theorem byteAt_cons_zero (b : Byte) (body : List Byte) : byteAt (b :: body) 0 = b := rfl

theorem byteAt_cons_succ (b : Byte) (body : List Byte) (k : Nat) : byteAt (b :: body) (k + 1) = byteAt body k := rfl

/-- The two bytes of a field make it up. -/
theorem half_of_bytes (h : Half) : h.extractLsb' 8 8 ++ h.extractLsb' 0 8 = h :=
  BitVec.extractLsb'_append_extractLsb' (w := 8) (len := 8)

/-- The two halves of a field of four bytes make it up. -/
theorem word_of_halves (w : Word) : w.extractLsb' 16 16 ++ w.extractLsb' 0 16 = w :=
  BitVec.extractLsb'_append_extractLsb' (w := 16) (len := 16)

/-- The four words of an engineer code make it up. -/
theorem code_of_words (c : EngineerCode) :
    c.extractLsb' 96 32 ++ c.extractLsb' 64 32 ++ c.extractLsb' 32 32 ++ c.extractLsb' 0 32 = c := by
  rw [BitVec.extractLsb'_append_extractLsb'_eq_extractLsb' (start₁ := 64) (start₂ := 96) rfl,
    BitVec.extractLsb'_append_extractLsb'_eq_extractLsb' (start₁ := 32) (start₂ := 64) rfl,
    BitVec.extractLsb'_append_extractLsb'_eq_extractLsb' (start₁ := 0) (start₂ := 32) rfl]
  exact BitVec.extractLsb'_eq_self

theorem halfAt_halfBytes (h : Half) (rest : List Byte) : halfAt (halfBytes h ++ rest) 0 = h := half_of_bytes h

theorem wordAt_wordBytes (w : Word) (rest : List Byte) : wordAt (wordBytes w ++ rest) 0 = w := by
  simp only [wordAt, halfAt, wordBytes, halfBytes, List.cons_append, List.nil_append, byteAt_cons_zero,
    byteAt_cons_succ, half_of_bytes, word_of_halves]

theorem codeAt_codeBytes (c : EngineerCode) (rest : List Byte) : codeAt (codeBytes c ++ rest) 0 = c := by
  simp only [codeAt, wordAt, halfAt, codeBytes, wordBytes, halfBytes, List.cons_append, List.nil_append,
    byteAt_cons_zero, byteAt_cons_succ, half_of_bytes, word_of_halves, code_of_words]

/-! ### Records (R177, R178, section 10.5) -/

theorem drawnFieldsAt_drawnBytes (f : DrawnFields) (rest : List Byte) :
    drawnFieldsAt (drawnBytes f ++ rest) 0 = f := by
  simp only [drawnFieldsAt, wordAt, halfAt, drawnBytes, wordBytes, halfBytes, List.cons_append, List.nil_append,
    byteAt_cons_zero, byteAt_cons_succ, half_of_bytes, word_of_halves]

theorem byteAt_drop (body : List Byte) (n k : Nat) : byteAt (body.drop n) k = byteAt body (n + k) := by
  simp only [byteAt, List.getD_eq_getElem?_getD, List.getElem?_drop]

section
variable {body rest : List Byte} {k : Nat}

theorem halfAt_of_drop {h : Half} (hd : body.drop k = halfBytes h ++ rest) : halfAt body k = h := by
  have shift : halfAt body k = halfAt (body.drop k) 0 := by
    simp only [halfAt, byteAt_drop, Nat.add_zero, Nat.zero_add]
  rw [shift, hd, halfAt_halfBytes]

theorem wordAt_of_drop {w : Word} (hd : body.drop k = wordBytes w ++ rest) : wordAt body k = w := by
  have shift : wordAt body k = wordAt (body.drop k) 0 := by
    simp only [wordAt, halfAt, byteAt_drop, Nat.add_assoc, Nat.add_zero, Nat.zero_add]
  rw [shift, hd, wordAt_wordBytes]

theorem codeAt_of_drop {c : EngineerCode} (hd : body.drop k = codeBytes c ++ rest) : codeAt body k = c := by
  have shift : codeAt body k = codeAt (body.drop k) 0 := by
    simp only [codeAt, wordAt, halfAt, byteAt_drop, Nat.add_assoc, Nat.add_zero, Nat.zero_add]
  rw [shift, hd, codeAt_codeBytes]

theorem drawnFieldsAt_of_drop {f : DrawnFields} (hd : body.drop k = drawnBytes f ++ rest) :
    drawnFieldsAt body k = f := by
  have shift : drawnFieldsAt body k = drawnFieldsAt (body.drop k) 0 := by
    simp only [drawnFieldsAt, wordAt, halfAt, byteAt_drop, Nat.add_assoc, Nat.add_zero, Nat.zero_add]
  rw [shift, hd, drawnFieldsAt_drawnBytes]

theorem planFieldsAt_planBytes (f : PlanFields) (rest : List Byte) : planFieldsAt (planBytes f ++ rest) 0 = f :=
  congrArg (PlanFields.mk f.wall f.course) (drawnFieldsAt_of_drop (rest := rest) rfl)

theorem planFieldsAt_of_drop {f : PlanFields} (hd : body.drop k = planBytes f ++ rest) : planFieldsAt body k = f := by
  have shift : planFieldsAt body k = planFieldsAt (body.drop k) 0 := by
    simp only [planFieldsAt, drawnFieldsAt, wordAt, halfAt, byteAt_drop, Nat.add_assoc, Nat.add_zero, Nat.zero_add]
  rw [shift, hd, planFieldsAt_planBytes]

theorem loadRecordAt_of_drop {r : LoadRecord} (hd : body.drop k = loadRecordBytes r ++ rest) :
    loadRecordAt body k = r := by
  have hindex : halfAt body k = r.index :=
    halfAt_of_drop (rest := planBytes r.plan ++ rest) (by rw [hd, loadRecordBytes, List.append_assoc])
  have hplan : planFieldsAt body (k + 2) = r.plan := by
    refine planFieldsAt_of_drop (rest := rest) ?_
    rw [← List.drop_drop, hd]
    rfl
  unfold loadRecordAt
  rw [hindex, hplan]

theorem asLaidFieldsAt_asLaidBytes (f : AsLaidFields) (rest : List Byte) :
    asLaidFieldsAt (asLaidBytes f ++ rest) 0 = f := by
  simp only [asLaidFieldsAt, wordAt, halfAt, asLaidBytes, wordBytes, halfBytes, List.cons_append, List.nil_append,
    byteAt_cons_zero, byteAt_cons_succ, half_of_bytes, word_of_halves]

theorem asLaidFieldsAt_of_drop {f : AsLaidFields} (hd : body.drop k = asLaidBytes f ++ rest) :
    asLaidFieldsAt body k = f := by
  have shift : asLaidFieldsAt body k = asLaidFieldsAt (body.drop k) 0 := by
    simp only [asLaidFieldsAt, wordAt, halfAt, byteAt_drop, Nat.add_assoc, Nat.add_zero, Nat.zero_add]
  rw [shift, hd, asLaidFieldsAt_asLaidBytes]

theorem wallFieldsAt_wallFieldBytes (f : WallFields) (b : Byte) (rest : List Byte) :
    wallFieldsAt (b :: (wallFieldBytes f ++ rest)) 1 = f := by
  simp only [wallFieldsAt, wordAt, halfAt, wallFieldBytes, wordBytes, halfBytes, List.cons_append, List.nil_append,
    byteAt_cons_zero, byteAt_cons_succ, half_of_bytes, word_of_halves]

theorem typeFieldsAt_typeFieldBytes (f : TypeFields) (b : Byte) (rest : List Byte) :
    typeFieldsAt (b :: (typeFieldBytes f ++ rest)) 1 = f := by
  simp only [typeFieldsAt, halfAt, typeFieldBytes, halfBytes, List.cons_append, List.nil_append,
    byteAt_cons_zero, byteAt_cons_succ, half_of_bytes]

theorem laidFieldsAt_laidBytes (f : LaidFields) (b : Byte) (rest : List Byte) :
    laidFieldsAt (b :: (laidBytes f ++ rest)) 1 = f := by
  simp only [laidFieldsAt, wordAt, halfAt, laidBytes, wordBytes, halfBytes, List.cons_append, List.nil_append,
    byteAt_cons_zero, byteAt_cons_succ, half_of_bytes, word_of_halves]

theorem sweepFieldsOf_sweepBytes (op : Byte) (f : SweepFields) : sweepFieldsOf (sweepBytes op f) = f := by
  simp only [sweepFieldsOf, addressAt, halfAt, sweepBytes, addressBytes, halfBytes, List.cons_append, List.nil_append,
    byteAt_cons_zero, byteAt_cons_succ, half_of_bytes]

end

/-! ### Slot Load (R127, R177) -/

theorem length_loadRecordBytes (r : LoadRecord) : (loadRecordBytes r).length = 23 := rfl

theorem length_flatMap_loadRecordBytes (rs : List LoadRecord) : (rs.flatMap loadRecordBytes).length = 23 * rs.length := by
  induction rs with
  | nil => rfl
  | cons r rs ih => rw [List.flatMap_cons, List.length_append, ih, length_loadRecordBytes, List.length_cons]; omega

/-- The bytes from the n-th record on. -/
theorem drop_flatMap_loadRecordBytes (rs : List LoadRecord) (n : Nat) :
    (rs.flatMap loadRecordBytes).drop (23 * n) = (rs.drop n).flatMap loadRecordBytes := by
  induction n generalizing rs with
  | zero => rfl
  | succ n ih =>
    cases rs with
    | nil => simp
    | cons r rs =>
      have : 23 * (n + 1) = (loadRecordBytes r).length + 23 * n := by rw [length_loadRecordBytes]; omega
      rw [List.flatMap_cons, this, List.drop_length_add_append, ih, List.drop_succ_cons]

/-- The records of a Slot Load come back from its body. -/
theorem loadRecordsOf_flatMap (rs : List LoadRecord) : loadRecordsOf (rs.flatMap loadRecordBytes) = rs := by
  unfold loadRecordsOf
  rw [length_flatMap_loadRecordBytes, Nat.mul_div_cancel_left _ (by decide)]
  refine List.ext_getElem (by simp) fun n h1 h2 => ?_
  rw [List.getElem_map, List.getElem_range]
  refine loadRecordAt_of_drop (rest := (rs.drop (n + 1)).flatMap loadRecordBytes) ?_
  rw [drop_flatMap_loadRecordBytes, List.drop_eq_getElem_cons h2, List.flatMap_cons]

/-! ### Commands (section 10.5) -/

section
variable {c : Instr} {p : Port} {code : Byte} {body : List Byte}

theorem sweepOf_sweepBytes_withhold {op : Byte} (f : SweepFields) (h : op ≠ 1#8 ∧ op ≠ 2#8 ∧ op ≠ 3#8) :
    sweepOf (sweepBytes op f) = .sweepWithhold op f := by
  obtain ⟨h1, h2, h3⟩ := h
  unfold sweepOf
  rw [sweepFieldsOf_sweepBytes, show byteAt (sweepBytes op f) 7 = op from rfl]
  split
  · rename_i h; exact absurd (BitVec.eq_of_toNat_eq h) h1
  · rename_i h; exact absurd (BitVec.eq_of_toNat_eq h) h2
  · rename_i h; exact absurd (BitVec.eq_of_toNat_eq h) h3
  · rfl

theorem slotLoad_isCommand {n : Nat} (h1 : 1 ≤ n) (h8 : n ≤ 8) : isCommand .P 0x30 (23 * n) = true := by
  interval_cases n <;> rfl

/-- A frame's body is decoded into the command it was made of (R176 to R179, section 10.5). -/
theorem decodeCommand_encodeCommand (hwf : c.wellFormed = true) (h : encodeCommand c = some (p, code, body))
    (hc : ∀ p code body, c ≠ .unknownCode p code body) : decodeCommand p code body = some c := by
  cases c with
  | unknownCode p code body => exact absurd rfl (hc p code body)
  | slotRead p a | wallRead p w | typeRead p n | queueRead p n | lineRead p | readTime p | conditionsRead p
  | optionRead p | status p | eventFetch p =>
    cases h
    cases p <;> rfl
  | eventMask p m =>
    cases p with
    | P =>
      cases h
      exact congrArg (fun m => some (Instr.eventMask .P m)) (halfAt_of_drop (rest := []) rfl)
    | M =>
      cases h
      have hm : m.toNat < 256 := of_decide_eq_true hwf
      have : (m.setWidth 8).setWidth 16 = m := by
        apply BitVec.eq_of_toNat_eq
        rw [BitVec.toNat_setWidth, BitVec.toNat_setWidth]
        omega
      exact congrArg (fun m => some (Instr.eventMask .M m)) this
  | sweepWithhold op f =>
    cases h
    exact congrArg some (sweepOf_sweepBytes_withhold f (of_decide_eq_true hwf))
  | sweepFree f =>
    cases h
    exact congrArg (fun f => some (Instr.sweepFree f)) (sweepFieldsOf_sweepBytes 1 f)
  | sweepShift f =>
    cases h
    exact congrArg (fun f => some (Instr.sweepShift f)) (sweepFieldsOf_sweepBytes 2 f)
  | sweepRetype f =>
    cases h
    exact congrArg (fun f => some (Instr.sweepRetype f)) (sweepFieldsOf_sweepBytes 3 f)
  | unlock k =>
    cases h
    exact congrArg (fun k => some (Instr.unlock k)) (codeAt_of_drop (rest := []) (List.append_nil _).symm)
  | setCode b k =>
    cases h
    exact congrArg (fun k => some (Instr.setCode b k)) (codeAt_of_drop (rest := []) (List.append_nil _).symm)
  | wallDefine w f priority =>
    cases h
    exact congrArg (fun f => some (Instr.wallDefine w f priority)) (wallFieldsAt_wallFieldBytes f w [priority])
  | wallSet w f =>
    cases h
    exact congrArg (fun f => some (Instr.wallSet w f)) (wallFieldsAt_wallFieldBytes f w [])
  | typeDefine n f =>
    cases h
    exact congrArg (fun f => some (Instr.typeDefine n f)) (typeFieldsAt_typeFieldBytes f n [])
  | slotLoad rs =>
    cases h
    obtain ⟨h1, h8⟩ := of_decide_eq_true hwf
    unfold decodeCommand
    rw [length_flatMap_loadRecordBytes, if_pos (slotLoad_isCommand h1 h8)]
    exact congrArg (fun rs => some (Instr.slotLoad rs)) (loadRecordsOf_flatMap rs)
  | slotRestore a f l =>
    cases h
    have hf : planFieldsAt (addressBytes a ++ planBytes f ++ asLaidBytes l) 4 = f :=
      planFieldsAt_of_drop (rest := asLaidBytes l) rfl
    have hl : asLaidFieldsAt (addressBytes a ++ planBytes f ++ asLaidBytes l) 25 = l :=
      asLaidFieldsAt_of_drop (rest := []) (List.append_nil _).symm
    exact congrArg₂ (fun f l => some (Instr.slotRestore a f l)) hf hl
  | slotAmend a bits f =>
    cases h
    exact congrArg (fun f => some (Instr.slotAmend a bits f))
      (drawnFieldsAt_of_drop (rest := []) (List.append_nil _).symm)
  | setTime v =>
    cases h
    exact congrArg (fun v => some (Instr.setTime v)) (wordAt_of_drop (rest := []) rfl)
  | setOption n v =>
    cases h
    exact congrArg (fun v => some (Instr.setOption n v)) (wordAt_of_drop (rest := []) rfl)
  | laid n f =>
    cases h
    exact congrArg (fun f => some (Instr.laid n f)) (laidFieldsAt_laidBytes f n [])
  | binStatus m =>
    cases h
    exact congrArg (fun m => some (Instr.binStatus m)) (halfAt_of_drop (rest := []) rfl)
  | _ => cases h <;> rfl

end

end Sys2Proof.Machine

/-! PROOFS of the frames (R170 to R172, section 10.5): a frame is received whole and its check matches. -/

namespace Sys2Proof.Machine

open Sys2Proof

section
variable {c : Instr} {p : Port} {code : Byte} {body : List Byte}

/-- Every entry of the command lists admits at most 184 bytes of body. -/
theorem size_le_of_mem : ∀ p : Port, ∀ e ∈ commandSizes p, ∀ n ∈ e.2, n ≤ 184
  | .P => by decide
  | .M => by decide

theorem length_le_of_isCommand {n : Nat} (h : isCommand p code n = true) : n ≤ 184 := by
  unfold isCommand bodySizes at h
  cases he : (commandSizes p).find? fun e => e.1 == code.toNat with
  | none => rw [he] at h; cases h
  | some e =>
    rw [he] at h
    exact size_le_of_mem p e (List.mem_of_find?_eq_some he) n (List.contains_iff_mem.1 h)

theorem isCommand_of_decodeCommand (h : decodeCommand p code body = some c) :
    isCommand p code body.length = true := by
  unfold decodeCommand at h
  by_contra hno
  rw [if_neg hno] at h
  cases h

/-- A command whose frame its layout gives has a body that a frame can carry (R170). -/
theorem length_lt_of_encodeCommand (hwf : c.wellFormed = true) (h : encodeCommand c = some (p, code, body)) :
    body.length < 250 := by
  by_cases hc : ∃ p code body, c = .unknownCode p code body
  · obtain ⟨p, code, body, rfl⟩ := hc
    cases h
    simp only [Instr.wellFormed, Bool.and_eq_true, decide_eq_true_eq] at hwf
    exact hwf.2
  · have := length_le_of_isCommand (isCommand_of_decodeCommand (decodeCommand_encodeCommand hwf h
      fun p code body he => hc ⟨p, code, body, he⟩))
    omega

/-! ### One frame -/

theorem length_checkBytes (bytes : List Byte) : (checkBytes bytes).length = 2 := rfl

theorem take_frame (covered : List Byte) :
    (covered ++ checkBytes covered).take ((covered ++ checkBytes covered).length - 2) = covered := by
  rw [List.length_append, length_checkBytes, Nat.add_sub_cancel, List.take_left]

/-- The check of a frame matches (R171). -/
theorem checkMatches_frameOf (code : Byte) (body : List Byte) : checkMatches (frameOf code body) = true := by
  unfold frameOf
  dsimp only
  generalize BitVec.ofNat 8 (body.length + 1) :: code :: body = covered
  unfold checkMatches
  rw [take_frame, List.length_append, length_checkBytes, Nat.add_sub_cancel, List.drop_left]
  exact beq_self_eq_true _

theorem body_frameOf (code : Byte) (body : List Byte) :
    ((frameOf code body).take ((frameOf code body).length - 2)).drop 2 = body := by
  unfold frameOf
  dsimp only
  rw [take_frame]
  rfl

/-- The row of a frame is the command its body is decoded into, or Unknown Code (R172). -/
theorem rowOfFrame_frameOf (p : Port) (code : Byte) (body : List Byte) :
    rowOfFrame p (frameOf code body) = (decodeCommand p code body).getD (.unknownCode p code body) := by
  unfold rowOfFrame
  rw [checkMatches_frameOf, if_pos rfl, body_frameOf, show byteAt (frameOf code body) 1 = code from rfl]
  dsimp only
  cases decodeCommand p code body <;> rfl

/-- The frame of a well-formed command stands for that command. -/
theorem rowOfFrame_encodeCommand (hwf : c.wellFormed = true) (h : encodeCommand c = some (p, code, body)) :
    rowOfFrame p (frameOf code body) = c := by
  rw [rowOfFrame_frameOf]
  by_cases hc : ∃ p code body, c = .unknownCode p code body
  · obtain ⟨p, code, body, rfl⟩ := hc
    cases h
    simp only [Instr.wellFormed, Bool.and_eq_true, Bool.not_eq_true'] at hwf
    have : decodeCommand p code body = none := by
      unfold decodeCommand
      rw [hwf.1]
      rfl
    rw [this]
    rfl
  · rw [decodeCommand_encodeCommand hwf h fun p code body he => hc ⟨p, code, body, he⟩]
    rfl

/-- The length byte of a frame says how many bytes of code and body it has (R170). -/
theorem toNat_length_byte (short : body.length < 250) :
    (BitVec.ofNat 8 (body.length + 1)).toNat = body.length + 1 := by
  rw [BitVec.toNat_ofNat]
  omega

theorem frameComplete_frameOf (code : Byte) (short : body.length < 250) : frameComplete (frameOf code body) = true := by
  have hlen : (code :: body ++ checkBytes (BitVec.ofNat 8 (body.length + 1) :: code :: body)).length
      = body.length + 1 + 2 := by
    rw [List.length_append, length_checkBytes, List.length_cons]
  unfold frameOf frameComplete
  dsimp only [List.cons_append]
  rw [← List.cons_append, hlen, toNat_length_byte short]
  exact beq_self_eq_true _

theorem lengthTaken_frameOf (code : Byte) (short : body.length < 250) :
    lengthTaken (byteAt (frameOf code body) 0) = true := by
  have : byteAt (frameOf code body) 0 = BitVec.ofNat 8 (body.length + 1) := rfl
  rw [this, lengthTaken, toNat_length_byte short, Bool.and_eq_true, decide_eq_true_eq, decide_eq_true_eq]
  omega

/-- Bytes that hold no start byte start no frame (R170). -/
theorem receiveAll_noise (p : Port) {noise : List Byte} (h : 0xA5#8 ∉ noise) :
    receiveAll p .hunting noise = (.hunting, []) := by
  induction noise with
  | nil => rfl
  | cons b noise ih =>
    rw [List.mem_cons, not_or] at h
    have hb : receiveByte p .hunting b = (.hunting, []) := by
      simp only [receiveByte, if_neg (Ne.symm h.1)]
    rw [receiveAll_cons, hb]
    dsimp only
    rw [ih h.2]
    rfl

end

/-- Settles O2: the noise leaves the receiver hunting, the frame is received whole, and its row is the command. -/
theorem framesComeBackAsTheirCommands : Obligations.FramesComeBackAsTheirCommands := by
  unfold Obligations.FramesComeBackAsTheirCommands
  intro c p code body noise hwf h hnoise
  have short := length_lt_of_encodeCommand hwf h
  rw [receiveAll_append, receiveAll_noise p hnoise]
  dsimp only
  rw [receiveAll_frame p _ (frameComplete_frameOf code short) (lengthTaken_frameOf code short),
    rowOfFrame_encodeCommand hwf h]
  rfl

end Sys2Proof.Machine

/-! PROOFS of the rest of a Claim's scan and of the Target Request (sections 3.3, 3.4, 4.3 and 4.4). -/

namespace Sys2Proof.Machine

open Sys2Proof

/-! ### Claim: entries passed over and entries that fault (R49, R50) -/

section
variable {s : State} {n i : Nat} {x : Slot} {r : FaultReason}

/-- A scan passes over the first entries where none of them may be taken (R49). -/
theorem State.claimScan_passes {k : Nat} (fuel : Nat) (hk : k ≤ s.dispatcher.queue.length)
    (before : ∀ m < k, ∀ j y, s.dispatcher.queue[m]? = some j → s.plan.slot? j = some y → ¬ s.mayBeTaken y) :
    s.claimScan (fuel + k) 0 = s.claimScan fuel k := by
  have passed := s.claimScan_pass fuel 0 k fun m _ hm => by
    have hmk : m < k := by omega
    have listed := List.getElem?_eq_getElem (Nat.lt_of_lt_of_le hmk hk)
    exact ⟨_, listed, fun y hy =>
      Bool.eq_false_of_not_eq_true (mt (s.eligible_iff y).1 (before m hmk _ y listed hy))⟩
  rwa [Nat.zero_add] at passed

theorem State.claimScan_at_end (fuel : Nat) {pos : Nat} (h : s.dispatcher.queue.length ≤ pos) :
    s.claimScan fuel pos = s.claimEnds := by
  cases fuel with
  | zero => rfl
  | succ fuel => rw [State.claimScan, List.getElem?_eq_none h]

/-- An entry that may be taken and does not compute is faulted, and the scan goes on at its place (R50). -/
theorem State.claimScan_faults (fuel : Nat) (entry : s.dispatcher.queue[n]? = some i) (hx : s.plan.slot? i = some x)
    (may : s.mayBeTaken x) (faults : s.plan.claimTime x = .error r) :
    s.claimScan (fuel + 1) n = (s.faultAtClaim i r).claimScan fuel n := by
  rw [State.claimScan]
  simp only [entry, hx, (s.eligible_iff x).2 may, faults, if_true]

theorem QueueInForm.nodup (hs : QueueInForm s) : s.dispatcher.queue.Nodup := by
  have := hs.q
  unfold State.queueLaw at this
  rw [this]
  exact (Plan.readyOrder_nodup hs.wf).sublist (List.take_sublist _ _)

/-- Before the entry that faults, the queue stands, and no entry there may be taken that might not before. -/
theorem State.mayBeTaken_faultAtClaim (hs : QueueInForm s) (entry : s.dispatcher.queue[n]? = some i)
    (hx : s.plan.slot? i = some x)
    (before : ∀ m < n, ∀ j y, s.dispatcher.queue[m]? = some j → s.plan.slot? j = some y → ¬ s.mayBeTaken y) :
    ∀ m < n, ∀ j y, (s.faultAtClaim i r).dispatcher.queue[m]? = some j → (s.faultAtClaim i r).plan.slot? j = some y →
      ¬ (s.faultAtClaim i r).mayBeTaken y := by
  intro m hm j y hj hy
  obtain ⟨-, -, stands, -⟩ := State.queue_faultAtClaim (r := r) hs entry hx
  rw [stands m hm] at hj
  have hn : n < s.dispatcher.queue.length := (List.getElem?_eq_some_iff.1 entry).1
  have hij : i ≠ j := by
    rintro rfl
    exact absurd ((List.getElem?_inj (hm.trans hn) hs.nodup).1 (hj.trans entry.symm)) hm.ne
  rw [State.faultAtClaim_eq s i x r hx, Plan.slot?_modifySlot_ne _ hij] at hy
  rw [State.faultAtClaim_eq s i x r hx]
  exact before m hm j y hj hy

/-- A Claim after an entry has faulted goes on as a Claim in the state so left (R50). -/
theorem exec_claim_faults (hs : QueueInForm s) (goesOn : s.claimGoesOn) (entry : s.dispatcher.queue[n]? = some i)
    (hx : s.plan.slot? i = some x) (may : s.mayBeTaken x) (faults : s.plan.claimTime x = .error r)
    (before : ∀ m < n, ∀ j y, s.dispatcher.queue[m]? = some j → s.plan.slot? j = some y → ¬ s.mayBeTaken y) :
    exec .claim s = exec .claim (s.faultAtClaim i r) := by
  have hn : n < s.dispatcher.queue.length := (List.getElem?_eq_some_iff.1 entry).1
  obtain ⟨hlen, hready, -, hnt⟩ := State.queue_faultAtClaim (r := r) hs entry hx
  have hsize := s.plan.readyOrder_length_le
  obtain ⟨fuel, enough⟩ : ∃ fuel, s.claimFuel = fuel + 1 + n :=
    ⟨s.claimFuel - 1 - n, by unfold State.claimFuel; omega⟩
  have scan : exec .claim s = .next ((s.faultAtClaim i r).claimScan fuel n) := by
    rw [exec_claim_of_goesOn goesOn, enough, State.claimScan_passes _ hn.le before,
      State.claimScan_faults fuel entry hx may faults]
  rw [scan]
  by_cases hempty : (s.faultAtClaim i r).dispatcher.queue = []
  · have refusal : (s.faultAtClaim i r).claimRefusal = some (.noBrick, .noBrick .queueEmpty) := by
      obtain ⟨clock, station, estop, hold, stop, glue, room, -⟩ := goesOn
      rw [State.faultAtClaim_eq s i x r hx] at hempty ⊢
      dsimp only at hempty
      simp [State.claimRefusal, clock, station, estop, hold, stop, glue, Config.lineCapacity, room, hempty]
    rw [exec_claim_of_refusal refusal, State.claimScan_at_end fuel (by rw [hempty]; exact Nat.zero_le n),
      State.claimEnds, hempty]
    rfl
  · have goesOn' : (s.faultAtClaim i r).claimGoesOn := by
      obtain ⟨clock, station, estop, hold, stop, glue, room, -⟩ := goesOn
      rw [State.faultAtClaim_eq s i x r hx] at hempty ⊢
      exact ⟨clock, station, estop, hold, stop, glue, room, hempty⟩
    rw [exec_claim_of_goesOn goesOn',
      ← State.claimScan_passes fuel hnt (State.mayBeTaken_faultAtClaim hs entry hx before)]
    refine congrArg Host.Outcome.next (State.claimScan_fuel _ _ 0 _ _ (QueueInForm.faultAtClaim hs hx) (le_refl _) ?_ ?_)
    · unfold State.claimFuel at enough
      omega
    · have := (s.faultAtClaim i r).plan.readyOrder_length_le
      unfold State.claimFuel
      omega

end

/-- Settles O28: a scan passes over the entries before the one that faults, both before and after the fault. -/
theorem claimPassesOverAndFaults : Obligations.ClaimPassesOverAndFaults := by
  unfold Obligations.ClaimPassesOverAndFaults
  refine fun s form law goesOn => ⟨fun blocked => ?_, fun n i x r entry hx may faults before q hq => ?_⟩
  · have fuel : s.claimFuel = (s.plan.slots.length + 1) + s.dispatcher.queue.length := by
      unfold State.claimFuel
      omega
    have ends : s.claimScan s.claimFuel 0 = s.claimEnds := by
      rw [fuel, State.claimScan_passes _ (le_refl _) fun m hm j y hj hy => blocked j (List.mem_of_getElem? hj) y hy,
        State.claimScan_at_end _ (le_refl _)]
    have ⟨_, _, _, _, _, _, _, listed⟩ := goesOn
    have some_entry : ¬ s.dispatcher.queue.isEmpty = true := mt List.isEmpty_iff.1 listed
    rw [exec_claim_of_goesOn goesOn, ends, State.claimEnds, if_neg some_entry]
  · rw [exec_claim_faults ⟨form, law⟩ goesOn entry hx may faults before, State.faultAtClaim_eq s i x r hx, hq]

/-! ### The left end (R76 to R78, R80) -/

section
variable {p : Plan} {x y : Slot} {j : Nat} {a : AsLaid}

theorem heldInBand_eq (lo hi n : Nat) : heldInBand lo hi n = clampBand lo hi n := rfl

/-- Against no laid left neighbour the left end is the design left (R76). -/
theorem Plan.leftEnd_of_unlaid (h : ∀ j, x.left = some j → p.isLaid j = false) : p.leftEnd x = .ok x.designLeft := by
  rw [Plan.leftEnd, Plan.laidPart_eq_none h]

/-- Against a laid left neighbour the left end is held in the joint band (R77). -/
theorem Plan.leftEnd_of_laid (hl : x.left = some j) (hy : p.slot? j = some y) (laid : y.state.laid = true)
    (ha : y.asLaid = some a) {l : Nat} (held : heldInBand (a.right + (p.wall x.wall).params.jointMin)
      (a.right + (p.wall x.wall).params.jointMax) x.designLeft = l)
    (near : ((l : Int) - x.designLeft).natAbs ≤ (p.wall x.wall).params.driftMax) : p.leftEnd x = .ok l := by
  rw [heldInBand_eq] at held
  rw [Plan.leftEnd, Plan.laidPart_eq_some hl hy laid ha]
  dsimp only
  rw [held, drift, if_neg (Nat.not_lt.2 near)]

/-- A left end beyond the wall's drift max is a Drift (R78). -/
theorem Plan.leftEnd_of_drift (hl : x.left = some j) (hy : p.slot? j = some y) (laid : y.state.laid = true)
    (ha : y.asLaid = some a) {l : Nat} (held : heldInBand (a.right + (p.wall x.wall).params.jointMin)
      (a.right + (p.wall x.wall).params.jointMax) x.designLeft = l)
    (far : (p.wall x.wall).params.driftMax < ((l : Int) - x.designLeft).natAbs) : p.leftEnd x = .error .drift := by
  rw [heldInBand_eq] at held
  rw [Plan.leftEnd, Plan.laidPart_eq_some hl hy laid ha]
  dsimp only
  rw [held, drift, if_pos far]

end

/-- Settles O36: the design left held in the joint band, which is not empty. -/
theorem leftEndIsHeldInTheJointBand : Obligations.LeftEndIsHeldInTheJointBand := by
  unfold Obligations.LeftEndIsHeldInTheJointBand
  refine fun p x => ⟨Plan.leftEnd_of_unlaid,
    fun j y a lo hi l hl hy laid ha ranges hlo hhi below above inside => ?_⟩
  obtain ⟨-, -, -, -, -, -, -, -, -, hmin, hmax⟩ := ranges
  have band : lo ≤ hi := by omega
  have held : heldInBand lo hi x.designLeft = l := by
    rw [heldInBand_eq]
    rcases Nat.lt_or_ge x.designLeft lo with h | h
    · rw [clampBand_of_below h, below h]
    · rcases Nat.lt_or_ge hi x.designLeft with h' | h'
      · rw [clampBand_of_above band h', above h']
      · rw [clampBand_of_inside h h', inside h h']
  obtain ⟨hl1, hl2⟩ := clampBand_mem (x := x.designLeft) band
  rw [← heldInBand_eq, held] at hl1 hl2
  rw [hlo, hhi] at held
  refine ⟨Plan.leftEnd_of_laid hl hy laid ha held, Plan.leftEnd_of_drift hl hy laid ha held, ?_, ?_, ?_⟩
  · omega
  · omega
  · omega

/-! ### Target Request (R55 to R57, R79, R84, R85) -/

section
variable {s : State} {c : Carrier} {x : Slot} {tag : Byte} {l : Nat}

/-- A closer's left end stands as fixed at claim (R79). -/
theorem Plan.headLeft_of_closer (p : Plan) (x : Slot) (closer : c.closer = true) (left : c.left = some l) :
    p.headLeft c x = .ok l := by
  simp only [Plan.headLeft, closer, left]

theorem Plan.headLeft_of_not_closer (p : Plan) (x : Slot) (closer : c.closer = false) :
    p.headLeft c x = p.leftEnd x := by
  simp only [Plan.headLeft, closer]

/-- The target part is issued, whole (R56, R84, R85). -/
theorem exec_targetRequest_issued (front : s.line.head? = some c) (ht : c.tag = tag.toNat) (glued : c.stage = .glued)
    (hx : s.plan.slot? c.slot = some x) (left : s.plan.headLeft c x = .ok l) :
    exec (.targetRequest tag) s = .next (({ s with
      line := lineWith s.line c.tag fun d => { d with stage := .targeted, left := some l, targeted := true }
      plan := s.plan.modifySlot c.slot fun y => { y with
        target := some (s.plan.headTarget c x l)
        corrected := s.plan.isCorrected x (s.plan.headTarget c x l)
        openLeft := x.left.any fun j => !s.plan.isLaid j } } : State).reply .M 0x54 .ok
          (.target c.tag .targeted (s.plan.headTarget c x l) (s.plan.isCorrected x (s.plan.headTarget c x l)))) := by
  simp only [exec, execTargetRequest, State.withCarrier_some (State.carrier?_head front ht),
    State.whenFront_front front, glued, hx, left, State.issueTarget, State.modifyCarrier_eq]
  rfl

theorem exec_targetRequest_faulted {r : FaultReason} (front : s.line.head? = some c) (ht : c.tag = tag.toNat)
    (glued : c.stage = .glued) (hx : s.plan.slot? c.slot = some x) (left : s.plan.headLeft c x = .error r) :
    exec (.targetRequest tag) s = .next (({ s with
      line := lineWith s.line c.tag fun d => { d with stage := .faulted } } : State).reply .M 0x54 .fault
        (.faulted r)) := by
  simp only [exec, execTargetRequest, State.withCarrier_some (State.carrier?_head front ht),
    State.whenFront_front front, glued, hx, left, State.modifyCarrier_eq]

theorem Plan.isCorrected_iff (p : Plan) (x : Slot) (t : Target) :
    p.isCorrected x t = true ↔ t.top ≠ p.designTop x ∨ t.left ≠ x.designLeft := by
  simp only [Plan.isCorrected, Bool.or_eq_true, bne_iff_ne]

end

/-- Settles O31: the stage of the front carrier decides; from Glued the left end, or its Drift. -/
theorem targetRequestIssuesTheTarget : Obligations.TargetRequestIssuesTheTarget := by
  unfold Obligations.TargetRequestIssuesTheTarget
  intro s tag c front ht
  have carrier := State.carrier?_head front ht
  refine ⟨?_, fun stage => ?_, fun stage => ?_, fun x hx => ⟨fun g stage target => ?_, fun glued =>
    ⟨fun l hl => ?_, fun j y a closer left hy laid ha far => ?_⟩⟩⟩
  · rintro (stage | stage) <;>
      simp only [exec, execTargetRequest, State.withCarrier_some carrier, State.whenFront_front front, stage]
  · simp only [exec, execTargetRequest, State.withCarrier_some carrier, State.whenFront_front front, stage]
  · simp only [exec, execTargetRequest, State.withCarrier_some carrier, State.whenFront_front front, stage]
  · simp only [exec, execTargetRequest, State.withCarrier_some carrier, State.whenFront_front front, stage, hx, target]
  · have hleft : s.plan.headLeft c x = .ok l := by
      rcases hl with ⟨closer, left⟩ | ⟨closer, rfl, unlaid⟩ | ⟨closer, j, y, a, left, hy, laid, ha, held, near⟩
      · exact Plan.headLeft_of_closer _ _ closer left
      · rw [Plan.headLeft_of_not_closer _ _ closer, Plan.leftEnd_of_unlaid unlaid]
      · rw [Plan.headLeft_of_not_closer _ _ closer, Plan.leftEnd_of_laid left hy laid ha held.symm near]
    exact ⟨s.plan.headTarget c x l, s.plan.isCorrected x (s.plan.headTarget c x l), rfl, Plan.isCorrected_iff _ _ _,
      exec_targetRequest_issued front ht glued hx hleft⟩
  · refine exec_targetRequest_faulted front ht glued hx ?_
    rw [Plan.headLeft_of_not_closer _ _ closer, Plan.leftEnd_of_drift left hy laid ha rfl far]

/-! ### Expiry and staleness (R62, R114) -/

section
variable {s : State} {c : Carrier} {tag : Nat}

theorem State.expiryDue_iff : s.expiryDue c = true ↔ (c.stage = .glued ∨ c.stage = .targeted)
    ∧ ∃ d, c.deadline = some d ∧ ∃ now, s.clock = some now ∧ d ≤ now := by
  simp only [State.expiryDue, Bool.and_eq_true, Bool.or_eq_true, beq_iff_eq, Option.any_eq_true, decide_eq_true_eq]

theorem exec_adhesiveExpiry_of_due (hc : s.carrier? tag = some c) (due : s.expiryDue c = true) :
    exec (.adhesiveExpiry tag) s = .next { s with
      line := lineWith s.line tag fun e => { e with stage := .expired }
      events := { s.events with expiry := true } } := by
  simp only [exec, execAdhesiveExpiry, hc, due, if_true, State.modifyCarrier_eq]
  rfl

theorem exec_adhesiveExpiry_of_not_due (hc : s.carrier? tag = some c) (due : ¬ s.expiryDue c = true) :
    exec (.adhesiveExpiry tag) s = .next s := by
  simp only [exec, execAdhesiveExpiry, hc, if_neg due]

theorem State.stalenessDue_iff : s.stalenessDue = true ↔ s.conditions.stale = false
    ∧ ∃ r, s.conditions.lastReport = some r ∧ ∃ now, s.clock = some now ∧ min (r + 30) 4294967295 ≤ now := by
  cases hs : s.conditions.stale with
  | true => simp [State.stalenessDue, Conditions.stalenessTime, hs]
  | false =>
    simp only [State.stalenessDue, Conditions.stalenessTime, hs, Bool.false_eq_true, if_false, Option.any_map,
      Option.any_eq_true, decide_eq_true_eq, true_and]
    rfl

end

/-- Settles O34: each event has its effect where it is due and none where it is not. -/
theorem expiryAndStaleness : Obligations.ExpiryAndStaleness := by
  unfold Obligations.ExpiryAndStaleness
  refine ⟨fun s tag c hc => ⟨fun d now stage deadline clock reached => ?_, fun no => ?_⟩, fun s tag hc => ?_,
    fun s => ⟨fun r now fresh report clock reached => ?_, fun no => ?_⟩⟩
  · exact exec_adhesiveExpiry_of_due hc (State.expiryDue_iff.2 ⟨stage, d, deadline, now, clock, reached⟩)
  · refine exec_adhesiveExpiry_of_not_due hc fun due => ?_
    obtain ⟨stage, d, deadline, now, clock, reached⟩ := State.expiryDue_iff.1 due
    rcases no with ⟨glued, targeted⟩ | early
    · exact stage.elim glued targeted
    · exact Nat.not_le.2 (early d now deadline clock) reached
  · simp only [exec, execAdhesiveExpiry, hc]
  · have due : s.stalenessDue = true := State.stalenessDue_iff.2 ⟨fresh, r, report, now, clock, reached⟩
    simp only [exec, execStaleness, due, if_true, State.setConditions_turnStale fresh, Conditions.someGateOpen,
      Bool.or_assoc]
  · have due : ¬ s.stalenessDue = true := fun due => by
      obtain ⟨fresh, r, report, now, clock, reached⟩ := State.stalenessDue_iff.1 due
      rcases no with stale | early
      · rw [fresh] at stale
        cases stale
      · exact Nat.not_le.2 (early r now report clock) reached
    simp only [exec, execStaleness, if_neg due]

end Sys2Proof.Machine

/-! PROOFS of the edits of a slot's plan fields, by Slot Amend and by a sweep's step (sections 7.2 and 7.3). -/

namespace Sys2Proof.Machine

open Sys2Proof

/-! ### A Shift or Retype step (R140) -/

section
variable {s : State} {c : SweepContext} {i : Nat} {x y : Slot}

theorem exec_sweepStep_of_applied {t : State} (h : s.sweepReaches c i) (applied : s.sweepApply i c.op = .ok t) :
    exec .sweepStep s = .next (t.sweepProcessed c i) := by
  rw [sweepStep_of_reaches h, applied]

theorem exec_sweepStep_of_ended {r : SweepEnd} (h : s.sweepReaches c i) (ended : s.sweepApply i c.op = .error r) :
    exec .sweepStep s = .next (s.sweepEnded c r r.status) := by
  rw [sweepStep_of_reaches h, ended]
  exact congrArg Host.Outcome.next (s.endSweep_eq c r)

/-- A Shift or a Retype is an edit of the slot (R140). -/
theorem State.sweepApply_of_edit (s : State) (i : Nat) {op : SweepOp}
    (h : (∃ d, op = .shift d) ∨ ∃ t, op = .retype t) : ∃ edit, s.sweepApply i op = s.sweepEdit i edit := by
  rcases h with ⟨d, rfl⟩ | ⟨t, rfl⟩
  · exact ⟨_, rfl⟩
  · exact ⟨_, rfl⟩

/-- An edit of a slot in a wall that is not live, or under HELD, passes the test for HELD (R87). -/
theorem not_live_and_unheld {live held : Bool} (may : ¬ live = true ∨ held = true) : ¬ (live && !held) = true := by
  cases live <;> cases held <;> simp_all

section
variable (edit : Slot → Option Slot)

theorem State.sweepEdit_of_empty (hx : s.plan.slot? i = none) : s.sweepEdit i edit = .ok s := by
  rw [State.sweepEdit, hx]

theorem State.sweepEdit_of_claimed (hx : s.plan.slot? i = some x) (claimed : x.state = .claimed) :
    s.sweepEdit i edit = .error .inFlight := by
  rw [State.sweepEdit, hx]
  exact if_pos claimed

theorem State.sweepEdit_of_laid (hx : s.plan.slot? i = some x) (laid : x.state.laid = true) :
    s.sweepEdit i edit = .error .badState := by
  have unclaimed : x.state ≠ .claimed := fun h => by rw [h] at laid; cases laid
  rw [State.sweepEdit, hx]
  dsimp only
  rw [if_neg unclaimed, if_pos laid]

/-- The states whose plan fields a sweep edits (R140). -/
theorem SlotState.not_claimed_not_laid {st : SlotState} (h : st = .planned ∨ st = .ready ∨ st = .fault) :
    st ≠ .claimed ∧ ¬ st.laid = true ∧ st ≠ .empty := by
  rcases h with rfl | rfl | rfl <;> decide

variable (hx : s.plan.slot? i = some x) (open_state : x.state = .planned ∨ x.state = .ready ∨ x.state = .fault)
include hx open_state

theorem State.sweepEdit_of_not_held (live : (s.plan.wall x.wall).state.live = true) (unheld : s.held = false) :
    s.sweepEdit i edit = .error .notHeld := by
  obtain ⟨unclaimed, unlaid, -⟩ := SlotState.not_claimed_not_laid open_state
  rw [State.sweepEdit, hx]
  dsimp only
  rw [if_neg unclaimed, if_neg unlaid, live, unheld]
  rfl

variable {edit} (may : ¬ (s.plan.wall x.wall).state.live = true ∨ s.held = true)
include may

theorem State.sweepEdit_of_outside (none_fits : edit x = none) : s.sweepEdit i edit = .error .badValue := by
  obtain ⟨unclaimed, unlaid, -⟩ := SlotState.not_claimed_not_laid open_state
  rw [State.sweepEdit, hx]
  dsimp only
  rw [if_neg unclaimed, if_neg unlaid, if_neg (not_live_and_unheld may), none_fits]

/-- An edit in its range changes the slot where a field differs. -/
theorem State.sweepEdit_of_fits (fits : edit x = some y) :
    s.sweepEdit i edit = .ok (if y = x then s else s.sweepChange i x y) := by
  obtain ⟨unclaimed, unlaid, -⟩ := SlotState.not_claimed_not_laid open_state
  rw [State.sweepEdit, hx]
  dsimp only
  rw [if_neg unclaimed, if_neg unlaid, if_neg (not_live_and_unheld may), fits]
  dsimp only
  split <;> rfl

end

/-- A delta that leaves the range of the design left (R140). -/
theorem shifted_of_outside {d : Int} (h : (x.designLeft : Int) + d < 0 ∨ 200000 < (x.designLeft : Int) + d) :
    shifted d x = none := by
  have hmax : (Config.positionMax : Int) = 200000 := rfl
  rw [shifted, hmax]
  exact if_neg (by omega)

theorem shifted_of_inside {d : Int} {v : Nat} (h : (v : Int) = x.designLeft + d) (hv : v ≤ 200000) :
    shifted d x = some { x with designLeft := v } := by
  have hmax : (Config.positionMax : Int) = 200000 := rfl
  have hn : ((x.designLeft : Int) + d).toNat = v := by omega
  rw [shifted, hmax, if_pos (by omega), hn]

theorem Plan.retyped_of_outside {p : Plan} {t : Nat} (h : ∃ n, x.planCut = some n
    ∧ (n < (p.brickType t).minCut ∨ (p.brickType t).length < n)) : p.retyped t x = none := by
  obtain ⟨n, hn, outside⟩ := h
  rw [Plan.retyped, hn]
  refine if_neg ?_
  simp only [Option.all_some, inRange, Bool.and_eq_true, decide_eq_true_eq]
  omega

theorem Plan.retyped_of_inside {p : Plan} {t : Nat} (h : ∀ n, x.planCut = some n →
    (p.brickType t).minCut ≤ n ∧ n ≤ (p.brickType t).length) : p.retyped t x = some { x with type := t } := by
  rw [Plan.retyped]
  refine if_pos ?_
  cases hn : x.planCut with
  | none => rfl
  | some n => simpa only [Option.all_some, inRange, Bool.and_eq_true, decide_eq_true_eq] using h n hn

end

/-- Settles O54: the tests of the step in their order, then the edit, which changes the slot where a field differs. -/
theorem sweepStepEdits : Obligations.SweepStepEdits := by
  unfold Obligations.SweepStepEdits
  intro s c i reaches form op
  obtain ⟨edit, hedit⟩ := s.sweepApply_of_edit i op
  refine ⟨fun hx => ?_, fun x hx live hlive => ⟨fun claimed => ?_, fun laid => ?_, fun waits =>
    ⟨fun islive unheld => ?_, fun may => ⟨?_, ?_⟩⟩⟩⟩
  · exact exec_sweepStep_of_applied reaches (hedit.trans (State.sweepEdit_of_empty edit hx))
  · exact exec_sweepStep_of_ended reaches (hedit.trans (State.sweepEdit_of_claimed edit hx claimed))
  · exact exec_sweepStep_of_ended reaches (hedit.trans (State.sweepEdit_of_laid edit hx laid))
  · exact exec_sweepStep_of_ended reaches (hedit.trans
      (State.sweepEdit_of_not_held edit hx waits ((WallState.live_iff _).2 (hlive.1 islive)) unheld))
  all_goals have may' : ¬ (s.plan.wall x.wall).state.live = true ∨ s.held = true :=
    may.imp_left (mt fun h => hlive.2 ((WallState.live_iff _).1 h))
  · obtain ⟨-, -, present⟩ := SlotState.not_claimed_not_laid waits
    intro d hd
    have happly : s.sweepApply i c.op = s.sweepEdit i (shifted d) := by rw [hd]; rfl
    refine ⟨fun outside => ?_, fun v hv hmax => ?_⟩
    · exact exec_sweepStep_of_ended reaches
        (happly.trans (State.sweepEdit_of_outside hx waits may' (shifted_of_outside outside)))
    · have applied := happly.trans (State.sweepEdit_of_fits hx waits may' (shifted_of_inside hv hmax))
      refine ⟨fun zero => ?_, fun nonzero => ?_⟩
      · have same : ({ x with designLeft := v } : Slot) = x := by
          have : v = x.designLeft := by omega
          rw [this]
        rw [if_pos same] at applied
        exact exec_sweepStep_of_applied reaches applied
      · have differs : ({ x with designLeft := v } : Slot) ≠ x := fun h => by
          have : v = x.designLeft := congrArg Slot.designLeft h
          omega
        rw [if_neg differs, State.sweepChange_eq i x { x with designLeft := v } s form present] at applied
        exact exec_sweepStep_of_applied reaches applied
  · obtain ⟨-, -, present⟩ := SlotState.not_claimed_not_laid waits
    intro t ht
    have happly : s.sweepApply i c.op = s.sweepEdit i (s.plan.retyped t) := by rw [ht]; rfl
    refine ⟨fun outside => ?_, fun inside => ?_⟩
    · exact exec_sweepStep_of_ended reaches
        (happly.trans (State.sweepEdit_of_outside hx waits may' (Plan.retyped_of_outside outside)))
    · have applied := happly.trans (State.sweepEdit_of_fits hx waits may' (Plan.retyped_of_inside inside))
      refine ⟨fun same => ?_, fun other => ?_⟩
      · rw [if_pos (by rw [← same])] at applied
        exact exec_sweepStep_of_applied reaches applied
      · have differs : ({ x with type := t } : Slot) ≠ x := fun h => other (congrArg Slot.type h).symm
        rw [if_neg differs, State.sweepChange_eq i x { x with type := t } s form present] at applied
        exact exec_sweepStep_of_applied reaches applied

/-! ### Slot Amend (R131, R132) -/

section
variable {s : State} {ad : SlotAddress} {i : Nat} {bits : Byte} {f : DrawnFields} {x : Slot}

theorem amended_eq (x : Slot) (bits : Byte) (f : DrawnFields) : amended x bits f = x.amendedBy bits f := by
  unfold Slot.amendedBy
  rw [← slotOfFields_planned]
  rfl

section
variable (ht : s.takes .P .planShaping) (hi : s.resolve .P ad = some i) (hx : s.plan.slot? i = some x)
include ht hi hx

theorem exec_slotAmend_of_claimed (claimed : x.state = .claimed) :
    exec (.slotAmend ad bits f) s = .next ((s.setCursor .P i).refuse .P 0x32 .inFlight) := by
  refine (State.next_withSlot_some ht hi hx).trans ?_
  rw [if_pos claimed]

theorem exec_slotAmend_of_not_held (unclaimed : x.state ≠ .claimed)
    (live : (s.plan.wall x.wall).state.live = true) (other : x.state ≠ .fault) (unheld : s.held = false) :
    exec (.slotAmend ad bits f) s = .next ((s.setCursor .P i).refuse .P 0x32 .notHeld) := by
  have guard : ((s.plan.wall x.wall).state.live && x.state != .fault && !s.held) = true := by
    rw [live, unheld, bne_iff_ne.2 other]
    rfl
  refine (State.next_withSlot_some ht hi hx).trans ?_
  rw [if_neg unclaimed]
  exact congrArg Host.Outcome.next (if_pos guard)

/-- In a wall that is not live, under HELD, or in Fault, a slot passes the test for HELD (R131). -/
theorem exec_slotAmend_of_passes (unclaimed : x.state ≠ .claimed)
    (may : ¬ (s.plan.wall x.wall).state.live = true ∨ x.state = .fault ∨ s.held = true) :
    exec (.slotAmend ad bits f) s = .next (
      if x.state.laid then (s.setCursor .P i).refuse .P 0x32 .badState
      else if bits.getLsbD 7 || !s.plan.fieldsInRange (amendedSupportCount x bits f) (amended x bits f) then
        (s.setCursor .P i).refuse .P 0x32 .badValue
      else ((s.setCursor .P i).editSlot i x (amended x bits f)).reply .P 0x32 .ok
        (.slotState (((s.setCursor .P i).editSlot i x (amended x bits f)).plan.stateOf i))) := by
  have guard : ¬ ((s.plan.wall x.wall).state.live && x.state != .fault && !s.held) = true := by
    simp only [Bool.and_eq_true, bne_iff_ne, Bool.not_eq_true']
    rintro ⟨⟨live, other⟩, unheld⟩
    rcases may with h | h | h
    · exact h live
    · exact other h
    · rw [h] at unheld
      cases unheld
  refine (State.next_withSlot_some ht hi hx).trans ?_
  rw [if_neg unclaimed]
  exact congrArg Host.Outcome.next (if_neg guard)

theorem exec_slotAmend_of_laid (laid : x.state.laid = true)
    (may : ¬ (s.plan.wall x.wall).state.live = true ∨ x.state = .fault ∨ s.held = true) :
    exec (.slotAmend ad bits f) s = .next ((s.setCursor .P i).refuse .P 0x32 .badState) := by
  have unclaimed : x.state ≠ .claimed := fun h => by rw [h] at laid; cases laid
  rw [exec_slotAmend_of_passes ht hi hx unclaimed may, if_pos laid]

variable (waits : x.state = .planned ∨ x.state = .ready ∨ x.state = .fault)
  (may : ¬ (s.plan.wall x.wall).state.live = true ∨ x.state = .fault ∨ s.held = true)
include waits may

theorem exec_slotAmend_of_outside (outside : bits.getLsbD 7 = true
      ∨ ¬ s.plan.drawnLawful (x.amendedBy bits f) (amendedSupportCount x bits f)) :
    exec (.slotAmend ad bits f) s = .next ((s.setCursor .P i).refuse .P 0x32 .badValue) := by
  obtain ⟨unclaimed, unlaid, -⟩ := SlotState.not_claimed_not_laid waits
  have fails : (bits.getLsbD 7 || !s.plan.fieldsInRange (amendedSupportCount x bits f) (amended x bits f)) = true := by
    rw [Bool.or_eq_true, Bool.not_eq_true', amended_eq]
    exact outside.imp_right fun h => Bool.eq_false_of_not_eq_true (mt (s.plan.fieldsInRange_iff _ _).1 h)
  rw [exec_slotAmend_of_passes ht hi hx unclaimed may, if_neg unlaid, if_pos fails]

/-- The amended slot, edited and re-judged, whole (R132). -/
theorem exec_slotAmend_of_inside (form : tableWf s.plan.slots) (bit : bits.getLsbD 7 = false)
    (inside : s.plan.drawnLawful (x.amendedBy bits f) (amendedSupportCount x bits f)) {t : State}
    (edited : t = (s.setCursor .P i).afterEdit i x (x.amendedBy bits f)) :
    exec (.slotAmend ad bits f) s = .next (t.reply .P 0x32 .ok (.slotState (t.plan.stateOf i))) := by
  obtain ⟨unclaimed, unlaid, present⟩ := SlotState.not_claimed_not_laid waits
  have passes : ¬ (bits.getLsbD 7 || !s.plan.fieldsInRange (amendedSupportCount x bits f) (amended x bits f)) = true := by
    rw [bit, amended_eq, (s.plan.fieldsInRange_iff _ _).2 inside]
    exact Bool.false_ne_true
  have formCursor : tableWf (s.setCursor .P i).plan.slots := form
  rw [exec_slotAmend_of_passes ht hi hx unclaimed may, if_neg unlaid, if_neg passes, amended_eq,
    State.editSlot_eq i x (x.amendedBy bits f) (s.setCursor .P i) formCursor present, edited]

end

end

/-- Settles O49: the tests in their order, the range judged on the slot as it would stand. -/
theorem slotAmendChangesTheNamedFields : Obligations.SlotAmendChangesTheNamedFields := by
  unfold Obligations.SlotAmendChangesTheNamedFields
  refine ⟨fun s ad bits f ht hi => State.next_withSlot_unresolved ht hi, fun s ad i bits f u ht hi form hu bit => ?_⟩
  subst hu
  refine ⟨fun hx => State.next_withSlot_empty ht hi hx, fun x hx live hlive => ?_⟩
  rw [← WallState.live_iff] at hlive
  refine ⟨exec_slotAmend_of_claimed ht hi hx, fun unclaimed islive other unheld =>
    exec_slotAmend_of_not_held ht hi hx unclaimed (hlive.1 islive) other unheld, fun laid may => ?_,
    fun waits may y n hy hn => ?_⟩
  · refine exec_slotAmend_of_laid ht hi hx ?_ (may.imp (mt hlive.2) .inr)
    rcases laid with h | h | h <;> rw [h] <;> rfl
  · have may' : ¬ (s.plan.wall x.wall).state.live = true ∨ x.state = .fault ∨ s.held = true :=
      may.imp_left (mt hlive.2)
    have count : amendedSupportCount x bits f = n := hn.symm
    subst hy
    refine ⟨fun outside => ?_, fun inside => ⟨_, rfl, ?_⟩⟩
    · exact exec_slotAmend_of_outside ht hi hx waits may' (.inr (count ▸ outside))
    · exact exec_slotAmend_of_inside ht hi hx waits may' form bit (count ▸ inside) rfl

end Sys2Proof.Machine

/-! PROOFS of a wall's ends, by Close and by Wall Free (spec/01 section 1.6). -/

namespace Sys2Proof.Machine

open Sys2Proof

section
variable {s : State} {w : Byte} {x : Wall} {l : SlotTable}

/-! ### Close (R24) -/

/-- Slots retired one after another: their records change, and each is presented as it was listed (R24, R159). -/
theorem State.foldl_retire_frame
    (listed : ∀ e ∈ l, ∃ y, s.plan.slot? e.1 = some y ∧ y.wall = e.2.wall ∧ y.course = e.2.course) :
    ∃ slots, (l.map Prod.fst).foldl State.retire s = { s with
      plan := { s.plan with slots := slots }
      events := s.events.presentAll l .retired s.clock } := by
  induction l generalizing s with
  | nil => exact ⟨s.plan.slots, rfl⟩
  | cons e l ih =>
    obtain ⟨y, hy, hwall, hcourse⟩ := listed e List.mem_cons_self
    have retired : s.retire e.1 = { s with
        plan := s.plan.modifySlot e.1 fun x => { x with state := .retired }
        events := s.events.present e.1 e.2 .retired s.clock } := by
      rw [← Events.present_congr hwall hcourse]
      exact State.enter_of_slot? hy .retired id
    rw [List.map_cons, List.foldl_cons, retired]
    refine ih fun d hd => ?_
    obtain ⟨z, hz, zwall, zcourse⟩ := listed d (List.mem_cons_of_mem _ hd)
    by_cases same : e.1 = d.1
    · exact ⟨{ z with state := .retired }, by simp [same, hz], zwall, zcourse⟩
    · exact ⟨z, (Plan.slot?_modifySlot_ne _ same _).trans hz, zwall, zcourse⟩

/-- A wall whose slots retire, before any other slot is judged (R24, R160). -/
theorem State.retireWall_eq (hs : tableWf s.plan.slots) (w : Nat) : s.retireWall w = { s with
    plan := { s.plan.modifyWall w fun y => { y with state := .closed } with
      slots := s.plan.slots.map fun e => (e.1, if e.2.wall = w then { e.2 with state := .retired } else e.2) }
    events := s.events.presentAll (s.plan.slotsOf w) .retired s.clock } := by
  obtain ⟨slots, frame⟩ :=
    State.foldl_retire_frame (s := s.modifyWall w fun y => { y with state := .closed }) (l := s.plan.slotsOf w)
      fun e he => ⟨e.2, tableGet_of_mem hs.1 (List.mem_filter.1 he).1, rfl, rfl⟩
  have table : slots = s.plan.slots.map fun e =>
      (e.1, if e.2.wall = w then { e.2 with state := .retired } else e.2) := by
    rw [← State.slots_retireWall hs w, State.retireWall, frame]
  subst table
  exact frame

/-- The slots that rest on a slot are told by the supports alone, which stay as a wall retires. -/
theorem Plan.followers_of_map (p : Plan) {q : Plan} {g : Nat × Slot → Slot} (hq : q.slots = p.slots.map fun e => (e.1, g e))
    (hg : ∀ e, (g e).supports = e.2.supports) (i : Nat) : q.followers i = p.followers i := by
  unfold Plan.followers
  rw [hq, List.filter_map, List.map_map]
  refine congrArg (List.map Prod.fst) (List.filter_congr fun e _ => ?_)
  exact congrArg (List.contains · i) (hg e)

/-- Close as one update and one judgement of the slots that rest on the wall's (R24, R34). -/
theorem State.closeWall_eq (hs : tableWf s.plan.slots) (w : Nat) : s.closeWall w = ({ s with
    plan := { s.plan.modifyWall w fun y => { y with state := .closed } with
      slots := s.plan.slots.map fun e => (e.1, if e.2.wall = w then { e.2 with state := .retired } else e.2) }
    events := s.events.presentAll (s.plan.slotsOf w) .retired s.clock } : State).afterJudging
      ((s.plan.slotsOf w).flatMap fun e => s.plan.followers e.1) := by
  have form : tableWf (s.retireWall w).plan.slots := State.tableWf_foldl_retire _ hs
  have same : (s.retireWall w).plan.followers = s.plan.followers := funext fun i => by
    refine Plan.followers_of_map s.plan (State.slots_retireWall hs w) (fun e => ?_) i
    split <;> rfl
  have ids : (s.retireWall w).plan.followersOfAny ((s.plan.slotsOf w).map Prod.fst)
      = (s.plan.slotsOf w).flatMap fun e => s.plan.followers e.1 := by
    rw [Plan.followersOfAny, same, List.flatMap_map]
  calc s.closeWall w
      = (s.retireWall w).rejudge ((s.retireWall w).plan.followersOfAny ((s.plan.slotsOf w).map Prod.fst)) := rfl
    _ = _ := by rw [State.rejudge_eq form, ids, State.retireWall_eq hs]

theorem Plan.allSet_iff (p : Plan) (w : Nat) : p.allSet w = true ↔ ∀ e ∈ p.slotsOf w, e.2.state = .set := by
  simp [Plan.allSet]

theorem exec_close (ht : s.takes .P .operational) (hw : w.toNat ≤ 31) : exec (.close w) s = .next (
    if (s.plan.wall w.toNat).state.live && s.plan.allSet w.toNat then
      (s.closeWall w.toNat).reply .P 0x25 .ok (.count (s.plan.slotsOf w.toNat).length)
    else s.refuse .P 0x25 .badState) :=
  State.next_withWall_below ht hw

theorem exec_close_of_refused (ht : s.takes .P .operational) (hw : w.toNat ≤ 31)
    (h : ((s.plan.wall w.toNat).state ≠ .opened ∧ (s.plan.wall w.toNat).state ≠ .paused)
      ∨ ∃ e ∈ s.plan.slotsOf w.toNat, e.2.state ≠ .set) :
    exec (.close w) s = .next (s.refuse .P 0x25 .badState) := by
  rw [exec_close ht hw, if_neg]
  rw [Bool.and_eq_true, WallState.live_iff, Plan.allSet_iff]
  rintro ⟨live, set⟩
  rcases h with ⟨notOpen, notPaused⟩ | ⟨e, he, notSet⟩
  · exact live.elim notOpen notPaused
  · exact notSet (set e he)

theorem exec_close_of_taken (ht : s.takes .P .operational) (hw : w.toNat ≤ 31)
    (live : (s.plan.wall w.toNat).state = .opened ∨ (s.plan.wall w.toNat).state = .paused)
    (set : ∀ e ∈ s.plan.slotsOf w.toNat, e.2.state = .set) :
    exec (.close w) s = .next ((s.closeWall w.toNat).reply .P 0x25 .ok (.count (s.plan.slotsOf w.toNat).length)) := by
  rw [exec_close ht hw, if_pos]
  rw [Bool.and_eq_true, WallState.live_iff, Plan.allSet_iff]
  exact ⟨live, set⟩

/-! ### Wall Free (R25) -/

/-- Wall Free as one update and one judgement of what rests on, or stands beside, a laid slot it frees (R25, R34). -/
theorem State.freeWall_eq (hs : tableWf s.plan.slots) (w : Nat) : s.freeWall w = (({ s with
    plan := { s.plan.modifyWall w fun _ => Wall.freeWall with
      slots := s.plan.slots.filter fun e => e.2.wall ≠ w } } : State).afterJudging
        (((s.plan.slotsOf w).filter fun e => e.2.state.laid).flatMap fun e =>
          s.plan.followers e.1 ++ (e.2.left.toList ++ e.2.right.toList))) :=
  State.rejudge_eq (tableWf_filter hs _) _

theorem exec_wallFree (ht : s.takes .P .planShaping) (hw : w.toNat ≤ 31) : exec (.wallFree w) s = .next (
    if (s.plan.wall w.toNat).state = .draft ∨ (s.plan.wall w.toNat).state = .closed then
      (s.freeWall w.toNat).reply .P 0x26 .ok (.count (s.plan.slotsOf w.toNat).length)
    else s.refuse .P 0x26 .badState) :=
  State.next_withWall_below ht hw

end

/-- Settles O45: each command's tests in order, then the one update it is. -/
theorem closeAndWallFree : Obligations.CloseAndWallFree := by
  unfold Obligations.CloseAndWallFree
  rintro s w _ _ rfl rfl hs
  refine ⟨fun ht => ⟨fun hw => State.next_withWall_above ht hw, fun hw => ⟨fun refused => ?_, fun live set => ?_⟩⟩,
    fun ht => ⟨fun hw => State.next_withWall_above ht hw, fun hw => ⟨fun notDraft notClosed => ?_, fun may => ?_⟩⟩⟩
  · exact exec_close_of_refused ht hw refused
  · rw [exec_close_of_taken ht hw live set, State.closeWall_eq hs]
    rfl
  · rw [exec_wallFree ht hw, if_neg (not_or.2 ⟨notDraft, notClosed⟩)]
  · rw [exec_wallFree ht hw, if_pos may, State.freeWall_eq hs]
    rfl

end Sys2Proof.Machine

/-! PROOFS of what a line reset leaves (spec/03 section 3.8). -/

namespace Sys2Proof.Machine

open Sys2Proof

/-! ### The carriers leave (R69) -/

/-- The record a carrier leaves behind as it leaves the line unlaid (R60, R61). -/
def Carrier.leaves (c : Carrier) (x : Slot) : Slot :=
  if c.stage = .faulted then { x.withdrawn with state := .fault, faultReason := some .drift }
  else { x.withdrawn with state := .planned }

theorem Carrier.leaves_of_faulted {c : Carrier} (h : c.stage = .faulted) (x : Slot) :
    c.leaves x = { x.withdrawn with state := .fault, faultReason := some .drift } := if_pos h

theorem Carrier.leaves_of_not_faulted {c : Carrier} (h : c.stage ≠ .faulted) (x : Slot) :
    c.leaves x = { x.withdrawn with state := .planned } := if_neg h

/-- The slots of the Faulted carriers among some, with their records (`State.faultedSlots` for the line). -/
def Plan.faultedAmong (p : Plan) (l : List Carrier) : SlotTable :=
  l.filterMap fun c => if c.stage = .faulted then (p.slot? c.slot).map fun x => (c.slot, x) else none

theorem Plan.faultedAmong_line (s : State) : s.plan.faultedAmong s.line = s.faultedSlots := rfl

/-- What the watches and PlanFault are told as carriers leave (R61, R160). -/
def Events.faultEach (e : Events) (l : SlotTable) (time : Option Nat) : Events :=
  { e.presentAll l .fault time with planFault := e.planFault || !l.isEmpty }

theorem Events.faultEach_nil (e : Events) (time : Option Nat) : e.faultEach [] time = e := by
  simp [Events.faultEach, Events.presentAll]

/-- PlanFault is not what a presentation reads. -/
theorem Events.presentAll_planFault (l : SlotTable) (st : SlotState) (time : Option Nat) (e : Events) (b : Bool) :
    ({ e with planFault := b } : Events).presentAll l st time = { e.presentAll l st time with planFault := b } := by
  induction l generalizing e with
  | nil => rfl
  | cons d l ih => exact ih (e.present d.1 d.2 st time)

theorem Events.faultEach_append (e : Events) (l m : SlotTable) (time : Option Nat) :
    (e.faultEach l time).faultEach m time = e.faultEach (l ++ m) time := by
  have either : (!(l ++ m).isEmpty) = (!l.isEmpty || !m.isEmpty) := by cases l <;> rfl
  simp only [Events.faultEach, Events.presentAll_planFault, Events.presentAll_append, either, Bool.or_assoc]

section
variable {s : State} {c : Carrier} {l : List Carrier} {x : Slot} {i : Nat}

theorem State.dropCarrier_eq (hx : s.plan.slot? c.slot = some x) : s.dropCarrier c = { s with
    line := lineWithout s.line c.tag
    plan := s.plan.modifySlot c.slot c.leaves
    events := s.events.faultEach (s.plan.faultedAmong [c]) s.clock } := by
  by_cases h : c.stage = .faulted
  · have left : c.leaves = _ := funext (Carrier.leaves_of_faulted h)
    have told : s.plan.faultedAmong [c] = [(c.slot, x)] := by simp [Plan.faultedAmong, h, hx]
    rw [State.dropCarrier_of_faulted hx h, left, told]
    simp [Events.faultEach, Events.presentAll, Slot.withdrawn]
  · have left : c.leaves = _ := funext (Carrier.leaves_of_not_faulted h)
    have told : s.plan.faultedAmong [c] = [] := by simp [Plan.faultedAmong, h]
    rw [State.dropCarrier_of_not_faulted h, left, told, Events.faultEach_nil]
    rfl

/-- Carriers of other slots read the same records once one has left. -/
theorem Plan.slot?_left {p : Plan} (distinct : ((c :: l).map Carrier.slot).Nodup) {d : Carrier} (hd : d ∈ l) :
    (p.modifySlot c.slot c.leaves).slot? d.slot = p.slot? d.slot := by
  rw [List.map_cons, List.nodup_cons] at distinct
  exact Plan.slot?_modifySlot_ne _ (fun same => distinct.1 (List.mem_map.2 ⟨d, hd, same.symm⟩)) _

theorem Plan.faultedAmong_left {p : Plan} (distinct : ((c :: l).map Carrier.slot).Nodup) :
    (p.modifySlot c.slot c.leaves).faultedAmong l = p.faultedAmong l :=
  List.filterMap_congr fun d hd => by rw [Plan.slot?_left distinct hd]

/-- Carriers that leave one after another: each Faulted one is told with the record its slot had (R69). -/
theorem State.foldl_dropCarrier_frame (known : ∀ d ∈ l, ∃ x, s.plan.slot? d.slot = some x)
    (distinct : (l.map Carrier.slot).Nodup) : ∃ slots line, l.foldl State.dropCarrier s = { s with
      plan := { s.plan with slots := slots }
      line := line
      events := s.events.faultEach (s.plan.faultedAmong l) s.clock } := by
  induction l generalizing s with
  | nil => exact ⟨s.plan.slots, s.line, by rw [Plan.faultedAmong, List.filterMap_nil, Events.faultEach_nil]; rfl⟩
  | cons c l ih =>
    obtain ⟨x, hx⟩ := known c List.mem_cons_self
    obtain ⟨slots, line, rest⟩ := ih (s := s.dropCarrier c) (fun d hd => by
        rw [State.dropCarrier_eq hx, Plan.slot?_left distinct hd]
        exact known d (List.mem_cons_of_mem _ hd)) distinct.of_cons
    refine ⟨slots, line, ?_⟩
    have told : s.plan.faultedAmong (c :: l) = s.plan.faultedAmong [c] ++ s.plan.faultedAmong l :=
      List.filterMap_append (l := [c])
    rw [List.foldl_cons, rest, State.dropCarrier_eq hx, told, ← Events.faultEach_append,
      ← Plan.faultedAmong_left (p := s.plan) distinct]
    rfl

/-- A slot no carrier was of reads as before. -/
theorem State.slot?_foldl_dropCarrier_of_other (known : ∀ d ∈ l, ∃ x, s.plan.slot? d.slot = some x)
    (distinct : (l.map Carrier.slot).Nodup) (other : ∀ d ∈ l, d.slot ≠ i) :
    (l.foldl State.dropCarrier s).plan.slot? i = s.plan.slot? i := by
  induction l generalizing s with
  | nil => rfl
  | cons c l ih =>
    obtain ⟨x, hx⟩ := known c List.mem_cons_self
    rw [List.foldl_cons, ih, State.dropCarrier_eq hx]
    · exact Plan.slot?_modifySlot_ne _ (other c List.mem_cons_self) _
    · intro d hd
      rw [State.dropCarrier_eq hx, Plan.slot?_left distinct hd]
      exact known d (List.mem_cons_of_mem _ hd)
    · exact distinct.of_cons
    · exact fun d hd => other d (List.mem_cons_of_mem _ hd)

/-- The slot of a carrier reads as that carrier leaves it. -/
theorem State.slot?_foldl_dropCarrier (known : ∀ d ∈ l, ∃ x, s.plan.slot? d.slot = some x)
    (distinct : (l.map Carrier.slot).Nodup) (hc : c ∈ l) (hx : s.plan.slot? c.slot = some x) :
    (l.foldl State.dropCarrier s).plan.slot? c.slot = some (c.leaves x) := by
  induction l generalizing s with
  | nil => cases hc
  | cons d l ih =>
    obtain ⟨z, hz⟩ := known d List.mem_cons_self
    have rest : ∀ e ∈ l, ∃ x, (s.dropCarrier d).plan.slot? e.slot = some x := fun e he => by
      rw [State.dropCarrier_eq hz, Plan.slot?_left distinct he]
      exact known e (List.mem_cons_of_mem _ he)
    rw [List.foldl_cons]
    rcases List.mem_cons.1 hc with rfl | hc
    · rw [List.map_cons, List.nodup_cons] at distinct
      rw [State.slot?_foldl_dropCarrier_of_other rest distinct.2
        fun e he same => distinct.1 (List.mem_map.2 ⟨e, he, same⟩), State.dropCarrier_eq hz]
      simp [hx]
    · refine ih rest distinct.of_cons hc ?_
      rw [State.dropCarrier_eq hz, Plan.slot?_left distinct hc]
      exact hx

/-! ### A line of one carrier to a slot (R46) -/

/-- The carrier of a lawful line names a Claimed slot. -/
theorem State.lineLaw_known (hl : s.lineLaw) (hc : c ∈ s.line) : ∃ x, s.plan.slot? c.slot = some x
    ∧ x.state = .claimed ∧ x.tag = some c.tag :=
  Plan.claimedBy_iff.1 (hl.2.1 c hc).2

theorem State.lineLaw_distinct (hl : s.lineLaw) : (s.line.map Carrier.slot).Nodup := by
  refine List.Nodup.map_on (fun c hc d hd same => List.inj_on_of_nodup_map hl.1 hc hd ?_) (List.Nodup.of_map _ hl.1)
  obtain ⟨x, hx, -, ctag⟩ := State.lineLaw_known hl hc
  obtain ⟨y, hy, -, dtag⟩ := State.lineLaw_known hl hd
  rw [same, hy] at hx
  cases hx
  exact Option.some.inj (ctag.symm.trans dtag)

/-- A slot that is not Claimed is no carrier's. -/
theorem State.lineLaw_other (hl : s.lineLaw) (hx : s.plan.slot? i = some x) (unclaimed : x.state ≠ .claimed) :
    ∀ d ∈ s.line, d.slot ≠ i := by
  rintro d hd rfl
  obtain ⟨y, hy, claimed, -⟩ := State.lineLaw_known hl hd
  exact unclaimed (Option.some.inj (hx.symm.trans hy) ▸ claimed)

/-! ### No station (R28) -/

/-- Nothing is in reach of no station, so no slot that waits is Ready. -/
theorem Plan.readyConditions_none (p : Plan) (x : Slot) : p.readyConditions none x = false := by
  simp [Plan.readyConditions, inReach]

theorem Plan.judged_none_of_ready {p : Plan} (h : x.state = .ready) :
    p.judged none x = { x with state := .planned } := by
  rw [Plan.judged, if_pos (.inr h), p.readyConditions_none]
  rfl

theorem Plan.judged_none_of_not_ready {p : Plan} (h : x.state ≠ .ready) : p.judged none x = x := by
  by_cases planned : x.state = .planned
  · rw [Plan.judged, if_pos (.inl planned), p.readyConditions_none, ← planned]
    rfl
  · exact Plan.judged_of_other_state planned h

theorem Plan.judged_none_ne_ready (p : Plan) (x : Slot) : (p.judged none x).state ≠ .ready := by
  by_cases ready : x.state = .ready
  · rw [Plan.judged_none_of_ready ready]
    exact SlotState.noConfusion
  · rwa [Plan.judged_none_of_not_ready ready]

theorem Plan.slot?_rejudged_none (p : Plan) (i : Nat) :
    (p.rejudged none p.indices).slot? i = (p.slot? i).map (p.judged none) := by
  rw [Plan.slot?_rejudged]
  cases hx : p.slot? i with
  | none => rfl
  | some x => rw [Option.map_some, if_pos (List.contains_iff_mem.2 (Plan.mem_indices.2 (by rw [hx]; rfl)))]; rfl

theorem Plan.newlyReady_none (p : Plan) (ids : List Nat) : p.newlyReady none ids = [] :=
  List.filter_eq_nil_iff.2 fun e _ => by simp [Plan.turnsReady, p.readyConditions_none]

theorem Plan.queueByLaw_rejudged_none {p : Plan} (hs : tableWf p.slots) :
    (p.rejudged none p.indices).queueByLaw = [] := by
  have none_ready : (p.rejudged none p.indices).readySlots = [] := List.filter_eq_nil_iff.2 fun e he => by
    have hx := (Plan.mem_slots_iff (Plan.tableWf_rejudged hs _ _)).1 he
    rw [Plan.slot?_rejudged_none, Option.map_eq_some_iff] at hx
    obtain ⟨x, -, judged⟩ := hx
    rw [← judged, decide_eq_true_eq]
    exact p.judged_none_ne_ready x
  rw [Plan.queueByLaw, Plan.readyOrder, none_ready]
  rfl

/-- With no station every slot is re-judged out of Ready, and the queue is empty (R28, R38). -/
theorem State.rejudgeAll_of_no_station (hs : tableWf s.plan.slots) (hst : s.dispatcher.station = none) :
    s.rejudgeAll = { s with
      plan := s.plan.rejudged none s.plan.indices
      dispatcher := { s.dispatcher with queue := [] } } := by
  rw [State.rejudgeAll, State.rejudge_eq hs, State.afterJudging, hst, Plan.newlyReady_none,
    Plan.queueByLaw_rejudged_none hs]
  rfl

/-! ### Line reset (R44, R69, R126, R169, R170) -/

theorem State.isEmpty_faultedSlots (hl : s.lineLaw) : (!s.faultedSlots.isEmpty) = s.stopx := by
  rw [Bool.eq_iff_iff, Bool.not_eq_true', List.isEmpty_eq_false_iff_exists_mem, State.stopx, List.any_eq_true]
  simp only [State.faultedSlots, List.mem_filterMap]
  constructor
  · rintro ⟨e, c, hc, he⟩
    refine ⟨c, hc, ?_⟩
    by_contra h
    rw [if_neg (by simpa using h)] at he
    cases he
  · rintro ⟨c, hc, faulted⟩
    obtain ⟨x, hx, -⟩ := State.lineLaw_known hl hc
    exact ⟨(c.slot, x), c, hc, by rw [if_pos (by simpa using faulted), hx]; rfl⟩

/-- The state of a line reset once its carriers have left. -/
def State.lineCleared (s : State) : State := State.clearLine { s with dispatcher := s.dispatcher.lineReset }

theorem State.lineCleared_frame (hl : s.lineLaw) : ∃ slots, s.lineCleared = { s with
    plan := { s.plan with slots := slots }
    dispatcher := s.dispatcher.lineReset
    line := []
    events := s.events.faultEach s.faultedSlots s.clock } := by
  obtain ⟨slots, line, frame⟩ := State.foldl_dropCarrier_frame
    (s := { s with dispatcher := s.dispatcher.lineReset }) (l := s.line)
    (fun d hd => (State.lineLaw_known hl hd).imp fun _ h => h.1) (State.lineLaw_distinct hl)
  have cleared : s.lineCleared = _ := frame
  have empty : s.lineCleared.line = [] := State.clearLine_line _
  rw [cleared] at empty
  cases empty
  exact ⟨slots, cleared⟩

theorem exec_lineReset (hs : tableWf s.plan.slots) (hl : s.lineLaw) : exec .lineReset s = .next { s with
    plan := { s.plan with slots := (s.lineCleared.plan.rejudged none s.lineCleared.plan.indices).slots }
    dispatcher := { s.dispatcher with queue := [], station := none, binEmpty := 0 }
    line := []
    conditions := { s.conditions with stale := true, glue := .closed, exposure := .closed, stop := .closed }
    events := { s.events.presentAll s.faultedSlots .fault s.clock with
      planFault := s.events.planFault || s.stopx
      expiry := false
      gateChange := false
      stale := false }
    portM := { s.portM with receiver := .hunting } } := by
  have form : tableWf s.lineCleared.plan.slots := State.tableWf_foldl_dropCarrier _ hs
  obtain ⟨slots, frame⟩ := State.lineCleared_frame hl
  have station : s.lineCleared.dispatcher.station = none := by rw [frame]; rfl
  have judged := State.rejudgeAll_of_no_station form station
  rw [← State.isEmpty_faultedSlots hl]
  show (.next (({ s.lineCleared.rejudgeAll with
    line := []
    conditions := s.lineCleared.rejudgeAll.conditions.turnStale
    events := s.lineCleared.rejudgeAll.events.clearMachinePort } : State).setReceiver .M .hunting) : Result) = _
  rw [judged, frame]
  rfl

/-- What a slot reads as after a line reset: as its carrier left it, then out of Ready. -/
theorem State.slot?_lineCleared_of_other (hl : s.lineLaw) (other : ∀ d ∈ s.line, d.slot ≠ i) :
    s.lineCleared.plan.slot? i = s.plan.slot? i :=
  State.slot?_foldl_dropCarrier_of_other (s := { s with dispatcher := s.dispatcher.lineReset })
    (fun _ hd => (State.lineLaw_known hl hd).imp fun _ h => h.1) (State.lineLaw_distinct hl) other

theorem State.slot?_lineCleared_of_carrier (hl : s.lineLaw) (hc : c ∈ s.line) (hx : s.plan.slot? c.slot = some x) :
    s.lineCleared.plan.slot? c.slot = some (c.leaves x) :=
  State.slot?_foldl_dropCarrier (s := { s with dispatcher := s.dispatcher.lineReset })
    (fun _ hd => (State.lineLaw_known hl hd).imp fun _ h => h.1) (State.lineLaw_distinct hl) hc hx

end

/-- Settles O56: the carriers leave front to tail, each from a slot of its own; with no station no slot stays Ready. -/
theorem lineResetLeaves : Obligations.LineResetLeaves := by
  unfold Obligations.LineResetLeaves
  intro s hs hl
  refine ⟨_, exec_lineReset hs hl, rfl, rfl, ?_, rfl, fun i hx => ?_, fun i x hx => ?_, fun c hc x hx y hy => ?_⟩
  · rw [State.held_iff]
    exact and_iff_left rfl
  all_goals have reads := s.lineCleared.plan.slot?_rejudged_none
  · have other : ∀ d ∈ s.line, d.slot ≠ i := by
      rintro d hd rfl
      obtain ⟨z, hz, -⟩ := State.lineLaw_known hl hd
      cases hx.symm.trans hz
    refine (reads i).trans ?_
    rw [State.slot?_lineCleared_of_other hl other, hx]
    rfl
  · have stands (unclaimed : x.state ≠ .claimed) : s.lineCleared.plan.slot? i = some x :=
      (State.slot?_lineCleared_of_other hl (State.lineLaw_other hl hx unclaimed)).trans hx
    refine ⟨fun ready => (reads i).trans ?_, fun notReady unclaimed => (reads i).trans ?_⟩
    · rw [stands (ready ▸ SlotState.noConfusion), Option.map_some, Plan.judged_none_of_ready ready]
    · rw [stands unclaimed, Option.map_some, Plan.judged_none_of_not_ready notReady]
  · have left := (reads c.slot).trans (congrArg _ (State.slot?_lineCleared_of_carrier hl hc hx))
    subst hy
    refine ⟨fun faulted => left.trans ?_, fun standing => left.trans ?_⟩
    · rw [Option.map_some, Carrier.leaves_of_faulted faulted, Plan.judged_none_of_not_ready SlotState.noConfusion]
      rfl
    · rw [Option.map_some, Carrier.leaves_of_not_faulted standing, Plan.judged_none_of_not_ready SlotState.noConfusion]
      rfl

end Sys2Proof.Machine

/-! PROOFS about Station, Type Define, the field bytes out of their ranges, and the taking of a Sweep. -/

namespace Sys2Proof.Machine

open Sys2Proof

/-! ### Station (R43) -/

section
variable {s : State} {v : Byte}

theorem stationOf_of_outside (above : 7 < v.toNat) (some_station : v ≠ 0xFF#8) : stationOf v = none := by
  rw [stationOf, if_neg some_station, if_neg (by omega)]

theorem stationOf_of_inside (h : v.toNat ≤ 7 ∨ v = 0xFF#8) :
    stationOf v = some (if v = 0xFF#8 then none else some v.toNat) := by
  unfold stationOf
  by_cases no_station : v = 0xFF#8
  · rw [if_pos no_station, if_pos no_station]
  · rw [if_neg no_station, if_neg no_station, if_pos (Nat.lt_succ_of_le (h.resolve_right no_station))]

theorem State.rejudgeAll_eq (form : tableWf s.plan.slots) : s.rejudgeAll = s.afterJudging s.plan.indices :=
  State.rejudge_eq form _

theorem exec_station_of_outside (h : stationOf v = none) : exec (.station v) s = .next (s.refuse .M 0x50 .badValue) := by
  simp only [exec, execStation, h]

theorem exec_station_of_inside {st : Option Nat} (h : stationOf v = some st) : exec (.station v) s = .next (
    if s.line.isEmpty then
      ({ s with dispatcher := { s.dispatcher with station := st } } : State).rejudgeAll.refuse .M 0x50 .ok
    else s.refuse .M 0x50 .lineNotEmpty) := by
  simp only [exec, execStation, h]

end

/-- Settles O22: the value is read before the line, and the judgement is one update of every slot. -/
theorem stationRejudgesEverySlot : Obligations.StationRejudgesEverySlot := by
  unfold Obligations.StationRejudgesEverySlot
  refine fun s v => ⟨fun above other => exec_station_of_outside (stationOf_of_outside above other),
    fun inside => ⟨fun carriers => ?_, fun empty form => ?_⟩⟩
  all_goals rw [exec_station_of_inside (stationOf_of_inside inside)]
  · rw [if_neg (mt List.isEmpty_iff.1 carriers)]
  · rw [if_pos (List.isEmpty_iff.2 empty)]
    exact congrArg (fun u : State => Host.Outcome.next (u.refuse .M 0x50 .ok))
      (State.rejudgeAll_eq (by exact form))

/-! ### Flag bytes (section 10.2) -/

theorem flagOf_of_above_one {b : Byte} (h : 1 < b.toNat) : flagOf b = none := by
  unfold flagOf
  split
  · omega
  · omega
  · rfl

/-! ### Type Define (R11, R12) -/

section
variable {s : State} {t : Byte} {f : TypeFields}

theorem exec_typeDefine (ht : s.takes .P .planShaping) : exec (.typeDefine t f) s = .next (
    if t.toNat < Config.typeCount then
      if s.plan.typeInUse t.toNat then s.refuse .P 0x28 .inUse
      else (typeEntryOf f).elim (s.refuse .P 0x28 .badValue)
        fun b => ({ s with plan := s.plan.setType t.toNat b } : State).refuse .P 0x28 .ok
    else s.refuse .P 0x28 .badAddress) := by
  simp only [exec, execTypeDefine, State.onPlanPort_of_takes ht]
  cases typeEntryOf f <;> rfl

theorem exec_typeDefine_of_above (ht : s.takes .P .planShaping) (above : 63 < t.toNat) :
    exec (.typeDefine t f) s = .next (s.refuse .P 0x28 .badAddress) := by
  rw [exec_typeDefine ht, if_neg (mt lt_typeCount_iff.1 (Nat.not_le.2 above))]

theorem Plan.typeInUse_iff (p : Plan) (n : Nat) :
    p.typeInUse n = true ↔ (p.brickType n).defined = true ∧ ∃ e ∈ p.slots, e.2.type = n := by
  simp only [Plan.typeInUse, Bool.and_eq_true, List.any_eq_true, decide_eq_true_eq]

section
variable (ht : s.takes .P .planShaping) (named : t.toNat ≤ 63)
include ht named

theorem exec_typeDefine_of_in_use (used : s.plan.typeInUse t.toNat = true) :
    exec (.typeDefine t f) s = .next (s.refuse .P 0x28 .inUse) := by
  rw [exec_typeDefine ht, if_pos (lt_typeCount_iff.2 named), if_pos used]

variable (unused : ¬ s.plan.typeInUse t.toNat = true)
include unused

theorem exec_typeDefine_of_no_entry (h : typeEntryOf f = none) :
    exec (.typeDefine t f) s = .next (s.refuse .P 0x28 .badValue) := by
  rw [exec_typeDefine ht, if_pos (lt_typeCount_iff.2 named), if_neg unused, h]
  rfl

theorem exec_typeDefine_of_entry {b : BrickType} (h : typeEntryOf f = some b) :
    exec (.typeDefine t f) s = .next (({ s with plan := s.plan.setType t.toNat b } : State).refuse .P 0x28 .ok) := by
  rw [exec_typeDefine ht, if_pos (lt_typeCount_iff.2 named), if_neg unused, h]
  rfl

end

theorem typeEntryOf_of_flag_outside (h : 1 < f.defined.toNat ∨ (f.defined = 1#8 ∧ 1 < f.cuttable.toNat)) :
    typeEntryOf f = none := by
  unfold typeEntryOf
  rcases h with defined | ⟨defined, cuttable⟩
  · rw [flagOf_of_above_one defined]
  · rw [defined, flagOf_of_above_one cuttable]
    rfl

theorem typeEntryOf_of_undefined (h : f.defined = 0#8) : typeEntryOf f = some ⟨false, 0, 0, 0, false, 0⟩ := by
  rw [typeEntryOf, h]
  rfl

theorem inRange_iff {lo hi n : Nat} : inRange lo hi n = true ↔ lo ≤ n ∧ n ≤ hi := by
  simp only [inRange, Bool.and_eq_true, decide_eq_true_eq]

/-- A defined entry: its numbers in the ranges of R11, or none. -/
theorem typeEntryOf_of_defined (defined : f.defined = 1#8) (cuttable : f.cuttable.toNat ≤ 1) : typeEntryOf f =
    if (500 ≤ f.length.toNat ∧ f.length.toNat ≤ 6000) ∧ (400 ≤ f.height.toNat ∧ f.height.toNat ≤ 5000)
        ∧ f.bin.toNat ≤ 15 ∧ (100 ≤ f.minCut.toNat ∧ f.minCut.toNat ≤ f.length.toNat) then
      some ⟨true, f.length.toNat, f.height.toNat, f.bin.toNat, decide (f.cuttable = 1#8), f.minCut.toNat⟩
    else none := by
  have flag : flagOf (1#8) = some true := rfl
  simp only [typeEntryOf, defined, flag, flagOf_of_le_one cuttable, Bool.and_eq_true, inRange_iff, and_assoc,
    Nat.zero_le, true_and]

end

/-- Settles O46: the index, the use of the entry, then the fields. -/
theorem typeDefineWritesOneEntry : Obligations.TypeDefineWritesOneEntry := by
  unfold Obligations.TypeDefineWritesOneEntry
  refine fun s t f ht _ cut => ⟨exec_typeDefine_of_above ht, fun named => ⟨fun defined used => ?_, fun free => ?_⟩⟩
  · exact exec_typeDefine_of_in_use ht named ((s.plan.typeInUse_iff _).2 ⟨defined, used⟩)
  have unused : ¬ s.plan.typeInUse t.toNat = true := fun used => by
    obtain ⟨defined, e, he, same⟩ := (s.plan.typeInUse_iff _).1 used
    rcases free with undefined | other
    · rw [undefined] at defined
      cases defined
    · exact other e he same
  refine ⟨fun undefined => ?_, fun defined outside => ?_, fun defined length height bin minCut b hb => ?_⟩
  · exact exec_typeDefine_of_entry ht named unused (typeEntryOf_of_undefined undefined)
  · refine exec_typeDefine_of_no_entry ht named unused ((typeEntryOf_of_defined defined (cut defined)).trans (if_neg ?_))
    omega
  · subst hb
    exact exec_typeDefine_of_entry ht named unused
      ((typeEntryOf_of_defined defined (cut defined)).trans (if_pos ⟨length, height, bin, minCut⟩))

theorem exec_setCode_of_no_flag {s : State} {b : Byte} {code : EngineerCode} (ht : s.takes .P .authority)
    (live : s.authority.frozen = false) (engineer : s.authority.level = .engineer) (outside : flagOf b = none) :
    exec (.setCode b code) s = .next (s.refuse .P 0x42 .badValue) := by
  simp only [exec, execSetCode, State.onPlanPort_of_takes ht, live, engineer, Bool.false_eq_true, reduceCtorEq,
    if_false, outside]

/-- Settles O16: each byte leaves no flag, record or entry, once the tests before it have passed. -/
theorem fieldBytesOutOfTheirRanges : Obligations.FieldBytesOutOfTheirRanges := by
  unfold Obligations.FieldBytesOutOfTheirRanges
  refine ⟨fun s b code idle live engineer above => ?_, fun s f ht named above => ?_, fun s t f ht named unused flag => ?_,
    fun s a i x bits f ht hi hx planned draft bit => ?_⟩
  · exact exec_setCode_of_no_flag idle live engineer (flagOf_of_above_one above)
  · exact exec_watchSet_of_no_record ht named (watchRecordOf_of_outside (.inl (flagOf_of_above_one above)))
  · exact exec_typeDefine_of_no_entry ht named (by rw [unused]; exact Bool.false_ne_true)
      (typeEntryOf_of_flag_outside flag)
  · exact exec_slotAmend_of_outside ht hi hx (.inl planned) (.inl (by rw [draft]; exact Bool.false_ne_true)) (.inl bit)

/-! ### The operands of a Sweep (R136) -/

section
variable {f : SweepFields} {i : Nat} {op : Option SweepOp}

theorem sweepCountOf_of_outside {h : Half} (outside : 4096 < h.toNat) : sweepCountOf h = none := by
  rw [sweepCountOf, if_neg (by omega), if_neg (by omega)]

theorem sweepCountOf_of_inside {h : Half} {n : Nat} (hn : n = if h.toNat = 0 then 4096 else h.toNat) (inside : n ≤ 4096) :
    sweepCountOf h = some n := by
  rw [sweepCountOf]
  by_cases zero : h.toNat = 0
  · rw [if_pos zero, hn, if_pos zero]
  · rw [if_neg zero] at hn
    rw [if_neg zero, if_pos (hn ▸ inside), hn]

theorem directionOf_of_outside {b : Byte} (outside : 1 < b.toNat) : directionOf b = none := by
  unfold directionOf
  split
  · omega
  · omega
  · rfl

theorem directionOf_of_inside {b : Byte} {d : Direction} (h : (b.toNat = 0 ∧ d = .up) ∨ (b.toNat = 1 ∧ d = .down)) :
    directionOf b = some d := by
  rcases h with ⟨hb, rfl⟩ | ⟨hb, rfl⟩
  · rw [directionOf, hb]; rfl
  · rw [directionOf, hb]; rfl

theorem slotStateOf_of_code {b : Byte} {st : SlotState} (h : st.code = b.toNat) : slotStateOf b = some st := by
  rw [slotStateOf, ← h]
  cases st with
  | _ => rfl

theorem conditionOf_of_outside {b st : Byte} (outside : 2 < b.toNat ∨ (b ≠ 0#8 ∧ 7 < st.toNat)) :
    conditionOf b st = none := by
  unfold conditionOf
  split
  case h_1 zero => exact absurd outside (by bv_omega)
  case h_4 => rfl
  all_goals rw [slotStateOf_of_above (by omega)]; rfl

theorem conditionOf_of_inside {b st : Byte} {w : SweepCondition} (h : (b.toNat = 0 ∧ w = .always)
    ∨ ∃ x : SlotState, x.code = st.toNat ∧ ((b.toNat = 1 ∧ w = .whileIn x) ∨ (b.toNat = 2 ∧ w = .untilIn x))) :
    conditionOf b st = some w := by
  rcases h with ⟨hb, rfl⟩ | ⟨x, hx, ⟨hb, rfl⟩ | ⟨hb, rfl⟩⟩
  · rw [conditionOf, hb]; rfl
  · rw [conditionOf, hb, slotStateOf_of_code hx]; rfl
  · rw [conditionOf, hb, slotStateOf_of_code hx]; rfl

/-- One operand out of its range leaves no context. -/
theorem sweepContextOf_of_outside (outside : op = none ∨ sweepCountOf f.count = none ∨ directionOf f.direction = none
    ∨ conditionOf f.condition f.state = none) : sweepContextOf i op f = none := by
  unfold sweepContextOf
  split
  case h_1 _ count direction condition =>
    simp only [count, direction, condition, reduceCtorEq, or_self] at outside
  case h_2 => rfl

theorem sweepContextOf_of_inside {o : SweepOp} {n : Nat} {d : Direction} {w : SweepCondition}
    (count : sweepCountOf f.count = some n) (direction : directionOf f.direction = some d)
    (condition : conditionOf f.condition f.state = some w) :
    sweepContextOf i (some o) f = some ⟨i, n, d, o, w, none, false⟩ := by
  simp only [sweepContextOf, count, direction, condition]

/-! ### The operation of a Sweep (R136) -/

/-- The operand of a Shift or a Retype stands in its range. -/
def Plan.operandFits (p : Plan) : SweepOp → Prop
  | .shift d => -10000 ≤ d ∧ d ≤ 10000
  | .retype t => t ≤ 63 ∧ (p.brickType t).defined = true
  | _ => True

theorem Plan.operandFits_of_all {p : Plan} {o : SweepOp} (shift : ∀ v, o = .shift v → -10000 ≤ v ∧ v ≤ 10000)
    (retype : ∀ t, o = .retype t → t ≤ 63 ∧ (p.brickType t).defined = true) : p.operandFits o := by
  cases o with
  | shift d => exact shift d rfl
  | retype t => exact retype t rfl
  | _ => trivial

theorem Plan.not_operandFits {p : Plan} {o : SweepOp} (h : (∃ d, o = .shift d ∧ (d < -10000 ∨ 10000 < d))
    ∨ ∃ t, o = .retype t ∧ (63 < t ∨ (p.brickType t).defined = false)) : ¬ p.operandFits o := by
  rcases h with ⟨d, rfl, outside⟩ | ⟨t, rfl, outside⟩
  · rintro ⟨low, high⟩
    omega
  · rintro ⟨named, defined⟩
    exact outside.elim (by omega) fun undefined => by rw [undefined] at defined; cases defined

/-- Each Sweep row starts the engine with its operation, or with none where the operand is out of its range. -/
theorem exec_sweep {s : State} {c : Instr} {k : CommandClass} {o : SweepOp} (ht : s.takes .P k)
    (row : (c = .sweepWithhold 0#8 f ∧ k = .operational ∧ o = .withhold)
      ∨ (c = .sweepFree f ∧ k = .operational ∧ o = .free)
      ∨ (c = .sweepShift f ∧ k = .planShaping ∧ o = .shift f.deltaOrType.toInt)
      ∨ (c = .sweepRetype f ∧ k = .planShaping ∧ o = .retype (f.deltaOrType.toNat % 256))) :
    ∃ op : Option SweepOp, exec c s = .next (s.startSweep op f)
      ∧ (s.plan.operandFits o → op = some o) ∧ (¬ s.plan.operandFits o → op = none) := by
  rcases row with ⟨rfl, rfl, rfl⟩ | ⟨rfl, rfl, rfl⟩ | ⟨rfl, rfl, rfl⟩ | ⟨rfl, rfl, rfl⟩
  · exact ⟨some .withhold, congrArg Host.Outcome.next (State.onPlanPort_of_takes ht _), fun _ => rfl,
      fun h => absurd trivial h⟩
  · exact ⟨some .free, congrArg Host.Outcome.next (State.onPlanPort_of_takes ht _), fun _ => rfl,
      fun h => absurd trivial h⟩
  · exact ⟨shiftOf f.deltaOrType, congrArg Host.Outcome.next (State.onPlanPort_of_takes ht _), fun h => if_pos h,
      fun h => if_neg h⟩
  · rw [← show (f.deltaOrType.setWidth 8 : Byte).toNat = f.deltaOrType.toNat % 256 from BitVec.toNat_setWidth ..]
    exact ⟨s.plan.retypeOf f.deltaOrType, congrArg Host.Outcome.next (State.onPlanPort_of_takes ht _),
      fun h => if_pos (h.imp_left lt_typeCount_iff.2), fun h => if_neg (mt (And.imp_left lt_typeCount_iff.1) h)⟩

/-- A Sweep with an operation byte that names none starts with no operation (assumption 9). -/
theorem exec_sweepWithhold_of_no_operation {s : State} {b : Byte} (above : 3 < b.toNat) (ht : s.takes .P .operational) :
    exec (.sweepWithhold b f) s = .next (s.startSweep none f) := by
  have other : b ≠ 0#8 := by bv_omega
  refine congrArg Host.Outcome.next ((State.onPlanPort_of_takes ht _).trans ?_)
  rw [if_neg other]

variable {s : State}

theorem State.startSweep_unresolved (h : s.resolve .P f.start = none) : s.startSweep op f = s.refuse .P 0x10 .badAddress :=
  State.withAddress_none h _

theorem State.startSweep_of_no_context (h : s.resolve .P f.start = some i) (outside : sweepContextOf i op f = none) :
    s.startSweep op f = (s.setCursor .P i).refuse .P 0x10 .badValue := by
  rw [State.startSweep_eq, State.withAddress_some h, State.writeContext, outside]

theorem State.startSweep_of_context {d : SweepContext} (h : s.resolve .P f.start = some i)
    (inside : sweepContextOf i op f = some d) :
    s.startSweep op f = ({ s.setCursor .P i with engine := .sweep d } : State).release .P := by
  rw [State.startSweep_eq, State.withAddress_some h, State.writeContext, inside]

end

/-- Settles O52: the address, then the operands, each out of its range or read as the context has it. -/
theorem sweepIsTaken : Obligations.SweepIsTaken := by
  unfold Obligations.SweepIsTaken
  refine ⟨fun s f b above ht => ?_, fun s f c k o ht row => ?_⟩
  · rw [exec_sweepWithhold_of_no_operation above ht]
    exact ⟨fun h => congrArg _ (State.startSweep_unresolved h),
      fun i h => congrArg _ (State.startSweep_of_no_context h (sweepContextOf_of_outside (.inl rfl)))⟩
  obtain ⟨op, started, fits, unfit⟩ := exec_sweep ht row
  rw [started]
  refine ⟨fun h => congrArg _ (State.startSweep_unresolved h), fun i h => ⟨fun outside => ?_,
    fun n d w hn count direction condition shift retype => ?_⟩⟩
  · refine congrArg _ (State.startSweep_of_no_context h (sweepContextOf_of_outside ?_))
    rcases outside with count | direction | condition | condition | operand
    · exact .inr (.inl (sweepCountOf_of_outside count))
    · exact .inr (.inr (.inl (directionOf_of_outside direction)))
    · exact .inr (.inr (.inr (conditionOf_of_outside (.inl condition))))
    · exact .inr (.inr (.inr (conditionOf_of_outside (.inr condition))))
    · exact .inl (unfit (Plan.not_operandFits operand))
  · rw [fits (Plan.operandFits_of_all shift retype)]
    exact congrArg _ (State.startSweep_of_context h (sweepContextOf_of_inside (sweepCountOf_of_inside hn count)
      (directionOf_of_inside direction) (conditionOf_of_inside condition)))

end Sys2Proof.Machine

/-! PROOFS of what power-on reset leaves (R1 and the reset clause of each chapter). -/

namespace Sys2Proof.Machine

open Sys2Proof

section
variable (code : Option EngineerCode) (estop : Bool) (inputs : List (Port × LinkInput)) (pending : List Instr)

/-- Every wall is Free after power-on reset, inside the table and beyond it. -/
theorem State.wall_powerOn (w : Nat) : (State.powerOn code estop inputs pending).plan.wall w = Wall.freeWall := by
  by_cases hw : w < Config.wallCount
  · simp [State.powerOn, Plan.wall, hw]
  · simp [State.powerOn, Plan.wall, hw]

theorem State.brickType_powerOn (b : Nat) :
    (State.powerOn code estop inputs pending).plan.brickType b = BrickType.undefinedEntry := by
  by_cases hb : b < Config.typeCount
  · simp [State.powerOn, Plan.brickType, hb]
  · simp [State.powerOn, Plan.brickType, hb]

end

/-- No latch of a port is set, and no mask of a port is clear, once the events are reset (R163, R169). -/
theorem Events.latches_reset (p : Port) : ∀ b ∈ Events.reset.latches p, b = false := by
  cases p with
  | P => decide
  | M => decide

theorem Events.masks_reset (p : Port) : ∀ b ∈ Events.reset.masks p, b = true := by
  cases p with
  | P => decide
  | M => decide

theorem Events.latch_ne_true_of_reset (p : Port) (k : Nat) : (Events.reset.latches p)[k]? ≠ some true := fun h =>
  Bool.noConfusion (Events.latches_reset p true (List.mem_of_getElem? h))

theorem Events.mask_ne_false_of_reset (p : Port) (k : Nat) : (Events.reset.masks p)[k]? ≠ some false := fun h =>
  Bool.noConfusion (Events.masks_reset p false (List.mem_of_getElem? h))

theorem Events.attention_reset (p : Port) : (Events.reset.eligible p).any id = false := by
  cases p with
  | P => decide
  | M => decide

theorem Events.watches_reset {k : Nat} (hk : k < 8) : Events.reset.watches[k]? = some Watch.reset :=
  (Vector.getElem?_eq_getElem hk).trans (congrArg some (Vector.getElem_replicate _))

/-- The level after power-on reset: Operator where a code is stored (R148). -/
theorem Authority.powerOn_eq (code : Option EngineerCode) : Authority.powerOn code =
    { code := code, level := if code = none then .engineer else .operator, attempts := 5, frozen := false,
      epl := .operator } := by
  cases code with
  | none => rfl
  | some c => rfl

/-- Settles O57: the state that power-on builds, item by item; the state right after reset is the one without a code. -/
theorem powerOnResetLeaves : Obligations.PowerOnResetLeaves := by
  unfold Obligations.PowerOnResetLeaves
  refine ⟨fun s => ⟨_, rfl, fun _ => rfl, State.wall_powerOn _ _ _ _, State.brickType_powerOn _ _ _ _, rfl, rfl, rfl, rfl,
    fun k => ?options, rfl, Authority.powerOn_eq _,
    fun p => ⟨Events.latch_ne_true_of_reset p, Events.mask_ne_false_of_reset p, Events.attention_reset p⟩,
    fun _ => Events.watches_reset, fun p => ?ports, rfl, rfl, rfl, rfl, rfl⟩,
    rfl, rfl, rfl, rfl, rfl, State.consistent_powerOn _ _ _ _, ?_, ?_, State.countsLaw_powerOn _ _ _ _,
    ?_, ?_, ?_, ?_, ?_, ?_, ?_⟩
  case options =>
    show Options.defaults.valueOf k = _
    match k with
    | 0 | 1 | 2 | 3 | 4 | 5 | 6 | 7 | 8 | 9 | 10 => rfl
    | n + 11 => rfl
  case ports =>
    cases p with
    | P => rfl
    | M => rfl
  all_goals decide

end Sys2Proof.Machine
